-- ==== Sys2Proof/Word.lean ====
section
/-! DEFINITION. The bit-vector types of the ports and fields (00_scope.md R6, R8; 10_state.md R26).
Bit 0 is the least significant bit of every value, and every value is unsigned (R8, R10, R11). -/

namespace Sys2Proof

/-- A 256-bit port value: the packed word, each ENCODE input, the DECODE input (`WORD_W`, `IN_W`). -/
abbrev Word := BitVec 256

/-- The 32-bit timestamp DECODE returns (`TS_OUT_W`). -/
abbrev Timestamp := BitVec 32

/-- The 96-bit flow_rate DECODE returns (`FR_OUT_W`). -/
abbrev FlowRate := BitVec 96

/-- The 96-bit deposit and owed_deposit DECODE returns (`DEP_OUT_W`, `OWD_OUT_W`). -/
abbrev Amount := BitVec 96

/-- One 64-bit slice of the packed word (00_scope.md R13, 20_memory.md R44). -/
abbrev Limb := BitVec 64

end Sys2Proof
end

