-- ==== Sys2Proof/Syntax.lean ====
section
/-! DEFINITION. The transactions of the block (30_encoding.md R70): one constructor of `Instr` per row of
spec/opcode_table.json, the operand forms, and the record a transaction is written as. -/

namespace Sys2Proof

/-- How the surrounding system drives one input port: the operand forms of a transaction. -/
inductive Drive where
  /-- All 256 bits carry 0 or 1, and the port's value is `v` (30_encoding.md R62, R63, R72). -/
  | value (v : Word)
  /-- The port is driven by the block's own output across from it (70_reset_and_hazards.md R165): `dec_word` by
  `enc_word`; `enc_timestamp`, `enc_flow_rate`, `enc_deposit`, `enc_owed_deposit` by the `dec_*` output of the same
  name, zero-extended to 256 bits (log entry 7). -/
  | wired
  /-- Some bit of the port is not 0 or 1: undriven, unknown or high impedance (10_state.md R30). Which bit and which
  of the three is not kept: every such port is refused alike (log entry 6). -/
  | notTwoValued
  deriving DecidableEq, Repr

/-- The two operations of the block (00_scope.md R3), with their operands in the order of R70 and R72. -/
inductive Instr where
  /-- ENCODE t, f, d, o (40_encode.md R80, format ENC of R62). -/
  | encode (t f d o : Drive)
  /-- DECODE w (41_decode.md R100, format DEC of R63). -/
  | decode (w : Drive)
  deriving DecidableEq, Repr

/-- A transaction as the surrounding system presents it, before it is decoded: the 1-bit operation identifier and
the operands (30_encoding.md R70). The block has no such port: the record names which datapath a step evaluates. -/
structure Record where
  op : BitVec 1
  operands : List Drive
  deriving DecidableEq, Repr

end Sys2Proof
end

