-- ==== Sys2Proof/WellFormed.lean ====
section
/-! DEFINITION. Well-formed transactions: every operand is two-valued (10_state.md R30). No other check exists:
every two-valued operand of either operation is valid (30_encoding.md R69), and 256 bits is a fact of the type.
An ill-formed transaction still decodes and is refused when it is evaluated (60_exceptions.md R152). -/

namespace Sys2Proof

/-- The operand's bits are 0 or 1 as far as its own form says: a wire carries what the block's output carries. -/
def Drive.twoValued : Drive → Bool
  | .value _ => true
  | .wired => true
  | .notTwoValued => false

/-- Every operand of the transaction is two-valued. -/
def wellFormed : Instr → Bool
  | .encode t f d o => t.twoValued && f.twoValued && d.twoValued && o.twoValued
  | .decode w => w.twoValued

end Sys2Proof
end

