-- ==== Sys2Proof/Decode.lean ====
section
/-! DEFINITION. Decoding a transaction record (30_encoding.md R70, R71) and a record's bits, and the encoders.
The bits of a record are the `op` bit and then its operands in the order of its format, as 256-bit values
(95_test_vectors.md section 5): `op` is bit 0, as spec/opcode_table.json has it, and operand `k` of the record,
counted from 0, is bits 256k+1 to 256k+256, its bit 0 lowest (log entry 8). -/

namespace Sys2Proof

/-- Why a record is no transaction. -/
inductive DecodeError where
  /-- `op` is 0 (ENCODE) and the record does not carry four operands (R71). -/
  | encodeTakesFourOperands
  /-- `op` is 1 (DECODE) and the record does not carry one operand (R71). -/
  | decodeTakesOneOperand
  deriving DecidableEq, Repr

/-- The transaction a record stands for: `op` 0 is ENCODE with `t, f, d, o`, `op` 1 is DECODE with `w` (R70);
there is no other identifier value, and every transaction of one `op` has the same shape (R71). -/
def decode (r : Record) : Except DecodeError Instr :=
  if r.op = 0#1 then
    match r.operands with
    | [t, f, d, o] => .ok (.encode t f d o)
    | _ => .error .encodeTakesFourOperands
  else
    match r.operands with
    | [w] => .ok (.decode w)
    | _ => .error .decodeTakesOneOperand

/-- The record of a transaction (R70). -/
def encode : Instr → Record
  | .encode t f d o => { op := 0#1, operands := [t, f, d, o] }
  | .decode w => { op := 1#1, operands := [w] }

/-- How many 256-bit operands a record of this `op` carries (R71). -/
def operandCount (op : BitVec 1) : Nat :=
  if op = 0#1 then 4 else 1

/-- The first `n` 256-bit operands of a number, lowest first. Bits above the last one are no part of a record:
where they are not all zero they stand as one operand too many, which `decode` rejects. -/
def operandsOfBits : Nat → Nat → List Drive
  | 0, rest => if rest = 0 then [] else [.value (BitVec.ofNat 256 rest)]
  | n + 1, rest => .value (BitVec.ofNat 256 rest) :: operandsOfBits n (rest / 2 ^ 256)

/-- The record whose bits are `bits`. -/
def recordOfBits (bits : Nat) : Record :=
  let op := BitVec.ofNat 1 bits
  { op := op, operands := operandsOfBits (operandCount op) (bits / 2) }

/-- The bits of a list of operands, the first operand lowest. Only a two-valued constant has bits. -/
def bitsOfOperands : List Drive → Option Nat
  | [] => some 0
  | .value v :: rest => (bitsOfOperands rest).map fun b => v.toNat + 2 ^ 256 * b
  | .wired :: _ => none
  | .notTwoValued :: _ => none

/-- The bits of a record: `op` is bit 0, the operands follow. -/
def bitsOfRecord (r : Record) : Option Nat :=
  (bitsOfOperands r.operands).map fun b => r.op.toNat + 2 * b

/-- The transaction whose bits are `bits`. -/
def decodeBits (bits : Nat) : Except DecodeError Instr :=
  decode (recordOfBits bits)

/-- The bits of a transaction, where its operands are constants. -/
def encodeBits (i : Instr) : Option Nat :=
  bitsOfRecord (encode i)

/-- The transaction whose lowest `nbits` bits are `w` and whose further bits are 0, bit 0 being `op`. -/
def decodeTableWord (nbits w : Nat) : Option Instr :=
  (decodeBits (w % 2 ^ nbits)).toOption

end Sys2Proof
end

