-- ==== Sys2Proof/Machine/State.lean ====
section
/-! DEFINITION. What a transaction-level model of the block must keep between steps.

THE BLOCK ITSELF HOLDS NO STATE: no register, program counter, flag, control register, accumulator, buffer, latch or
memory (10_state.md R20 to R25, R32; 20_memory.md R40). Its outputs are functions of its present inputs and are
therefore computed (`State.encWordNow`, `State.decOutputsNow`), never stored. Every field below is the surrounding
system's side of the ports (R26, the only observable values): what it drives on each input now, what it last sampled
on the outputs, when it samples, and which transactions it will present next (log entry 1). -/

namespace Sys2Proof.Machine

/-- The four DECODE output ports (10_state.md R26). -/
structure DecodeOutputs where
  /-- `dec_timestamp` -/
  timestamp : Timestamp
  /-- `dec_flow_rate` -/
  flowRate : FlowRate
  /-- `dec_deposit` -/
  deposit : Amount
  /-- `dec_owed_deposit` -/
  owedDeposit : Amount
  deriving DecidableEq, Repr

/-- When the surrounding system samples the outputs of an evaluation (70_reset_and_hazards.md R164). The model has no
notion of time (R167), so this says only on which side of the settling time the sample falls. -/
inductive Sampling where
  /-- All inputs of the datapath have been stable for its settling time (`T_PD`, or `2 * T_PD` through a wire). -/
  | settled
  /-- The output is read before that. -/
  | early
  deriving DecidableEq, Repr

/-- The surrounding system's side of the block's ports; the block adds nothing to it. -/
structure State where
  /-- What drives `enc_timestamp`, the argument `t` (R26). -/
  encTimestamp : Drive
  /-- What drives `enc_flow_rate`, the argument `f` (R26). -/
  encFlowRate : Drive
  /-- What drives `enc_deposit`, the argument `d` (R26). -/
  encDeposit : Drive
  /-- What drives `enc_owed_deposit`, the argument `o` (R26). -/
  encOwedDeposit : Drive
  /-- What drives `dec_word`, the argument `w` (R26). -/
  decWord : Drive
  /-- The value of `enc_word` the surrounding system sampled at its last ENCODE transaction, if it ran one. -/
  sampledEncWord : Option Word
  /-- The four `dec_*` values the surrounding system sampled together at its last DECODE transaction, if it ran one. -/
  sampledDec : Option DecodeOutputs
  /-- Whether the surrounding system waits for the outputs to settle before it samples them (R164). -/
  sampling : Sampling
  /-- The transactions the surrounding system will present, the next one first (R70; log entry 10). -/
  pending : List Record
  deriving DecidableEq, Repr

/-- The reasons a step ends in a fault: none. "A model of the block has no fault outcome and no stuck outcome"
(60_exceptions.md R151), and no operation raises an exception for any input (R140). -/
inductive Fault where
  deriving DecidableEq, Repr

/-- The reasons a step is refused: the three of 60_exceptions.md R152, one for a record that is no transaction, and
the one for an instruction without a meaning. -/
inductive Refusal where
  /-- `exec` would raise it for an instruction that has no meaning yet; no arm does. Safe: nothing is claimed. -/
  | notModelled (mnemonic : String)
  /-- The sampling operations raise it when an input bit that the evaluation reads, on a port of its datapath or
  through a wire on a port of the other, is not 0 or 1 (10_state.md R30, decision D17). Safe: nothing is claimed. -/
  | inputNotTwoValued
  /-- The sampling operations raise it when a `dec_*` output drives an `enc_*` input while `enc_word` drives `dec_word`
  (70_reset_and_hazards.md R165, decision D19). Safe: nothing is claimed. -/
  | combinationalLoop
  /-- The sampling operations raise it when an output is read before its inputs have been stable for `T_PD`
  (70_reset_and_hazards.md R164, decision D15). Safe: nothing is claimed. -/
  | sampledBeforeSettled
  /-- `step` raises it for a record whose operand count is not that of its `op` (30_encoding.md R71): it is no
  transaction, so there is nothing to evaluate (log entry 9). Safe: nothing is claimed. -/
  | notATransaction
  deriving DecidableEq, Repr

/-- Right after reset. The block has nothing to reset and no output has a reset value (70_reset_and_hazards.md R160),
so this says only what the surroundings do: they drive no input yet (log entry 2), have sampled nothing (log entry
3), will sample after settling (log entry 4) and have no transaction to present (log entry 10). -/
def State.reset : State where
  encTimestamp := .notTwoValued
  encFlowRate := .notTwoValued
  encDeposit := .notTwoValued
  encOwedDeposit := .notTwoValued
  decWord := .notTwoValued
  sampledEncWord := none
  sampledDec := none
  sampling := .settled
  pending := []

end Sys2Proof.Machine
end

