-- ==== Sys2Proof/Machine/Datapath.lean ====
section
/-! DEFINITION. The two datapaths as pure total functions on port values (00_scope.md R12): ENCODE as 40_encode.md R81
writes it, DECODE as 41_decode.md R100 writes it. -/

namespace Sys2Proof.Machine

/-- The document's encode on unbounded naturals: the bitwise union of four independently positioned fields
(40_encode.md R81, `u`). Shifts are logical and nothing is masked (00_scope.md R10). -/
def encUnbounded (t f d o : Nat) : Nat :=
  (t <<< 224) ||| (f <<< 128) ||| ((d >>> 32) <<< 64) ||| (o >>> 32)

/-- The ENCODE datapath: the low 256 bits of that value (40_encode.md R81; bits at 256 and above are lost, R142). -/
def encDatapath (t f d o : Word) : Word :=
  BitVec.ofNat 256 (encUnbounded t.toNat f.toNat d.toNat o.toNat)

/-- The DECODE datapath (41_decode.md R100 to R104): the timestamp and flow_rate fields as they are, the deposit and
owed_deposit fields above 32 zero bits. -/
def decDatapath (w : Word) : DecodeOutputs where
  timestamp := w.extractLsb' 224 32
  flowRate := w.extractLsb' 128 96
  deposit := w.extractLsb' 64 64 ++ 0#32
  owedDeposit := w.extractLsb' 0 64 ++ 0#32

/-- A `dec_*` output on an `enc_*` input: zeros above (70_reset_and_hazards.md R165, 00_scope.md R10 `zext`). -/
def toPort {n : Nat} (v : BitVec n) : Word :=
  v.setWidth 256

end Sys2Proof.Machine
end

