-- ==== Sys2Proof/Machine/Operands.lean ====
section
/-! DEFINITION. Every operand form: what an input port carries, and with it what the outputs carry now. An output is a
function of the present inputs of its own datapath alone (10_state.md R24, R31); an input that is wired carries the
output of the other datapath (70_reset_and_hazards.md R165). -/

namespace Sys2Proof

/-- The port is driven by an output of the block (R165). -/
def Drive.isWired : Drive → Bool
  | .value _ => false
  | .wired => true
  | .notTwoValued => false

/-- What the port carries, where `wire` is what the output across from it carries. `none`: some bit has no value
(10_state.md R30). -/
def Drive.read (p : Drive) (wire : Option Word) : Option Word :=
  match p with
  | .value v => some v
  | .wired => wire
  | .notTwoValued => none

end Sys2Proof

namespace Sys2Proof.Machine

/-- The wiring closes a combinational loop: `enc_word` drives `dec_word` and some `dec_*` output drives an `enc_*`
input (70_reset_and_hazards.md R165; log entry 7 on part of the four wires). -/
def State.hasLoop (s : State) : Bool :=
  s.decWord.isWired &&
    (s.encTimestamp.isWired || s.encFlowRate.isWired || s.encDeposit.isWired || s.encOwedDeposit.isWired)

/-- What the `dec_*` outputs carry where `dec_word` is not wired. -/
def State.decFromPort (s : State) : Option DecodeOutputs :=
  (s.decWord.read none).map decDatapath

/-- What `enc_word` carries where no `enc_*` input is wired. -/
def State.encFromPorts (s : State) : Option Word := do
  let t ← s.encTimestamp.read none
  let f ← s.encFlowRate.read none
  let d ← s.encDeposit.read none
  let o ← s.encOwedDeposit.read none
  return encDatapath t f d o

/-- What `enc_word` carries now, once settled: ENCODE of what the four `enc_*` inputs carry. `none`: an input bit it
depends on has no value, or the wiring is a loop. -/
def State.encWordNow (s : State) : Option Word := do
  let t ← s.encTimestamp.read (s.decFromPort.map fun x => toPort x.timestamp)
  let f ← s.encFlowRate.read (s.decFromPort.map fun x => toPort x.flowRate)
  let d ← s.encDeposit.read (s.decFromPort.map fun x => toPort x.deposit)
  let o ← s.encOwedDeposit.read (s.decFromPort.map fun x => toPort x.owedDeposit)
  return encDatapath t f d o

/-- What the four `dec_*` outputs carry now, once settled: DECODE of what `dec_word` carries. `none`: an input bit they
depend on has no value, or the wiring is a loop. -/
def State.decOutputsNow (s : State) : Option DecodeOutputs :=
  (s.decWord.read s.encFromPorts).map decDatapath

/-- Why an evaluation whose output has no value is refused (60_exceptions.md R152): the loop where there is one,
else the input bit (log entry 5). -/
def State.inputRefusal (s : State) : Refusal :=
  if s.hasLoop then .combinationalLoop else .inputNotTwoValued

end Sys2Proof.Machine
end

