-- ==== Sys2Proof/Machine/Ops.lean ====
section
/-! DEFINITION. The shared operations of the two meanings: drive the inputs of a datapath, sample its outputs, take
the next record.

There is no operation on memory (20_memory.md R40) and none on registers (10_state.md R20). TAKING AN EXCEPTION has no
operation here, and none returns from one: no trap is ever taken, no state is saved, no mode changes, no vector is
read (60_exceptions.md R140, R143, R145, R146). -/

namespace Sys2Proof.Machine

/-- Drive the four ENCODE inputs together (20_memory.md R47, R48). -/
def State.driveEnc (t f d o : Drive) (s : State) : State :=
  { s with encTimestamp := t, encFlowRate := f, encDeposit := d, encOwedDeposit := o }

/-- Drive the DECODE input (20_memory.md R47). -/
def State.driveDec (w : Drive) (s : State) : State :=
  { s with decWord := w }

/-- Record a sample of `enc_word`. -/
def State.putEncSample (w : Word) (s : State) : State :=
  { s with sampledEncWord := some w }

/-- Record one sample of all four `dec_*` outputs. -/
def State.putDecSample (x : DecodeOutputs) (s : State) : State :=
  { s with sampledDec := some x }

/-- Set which records wait to be presented. -/
def State.putPending (rs : List Record) (s : State) : State :=
  { s with pending := rs }

/-- Sample `enc_word` (70_reset_and_hazards.md R164): one atomic step on one set of inputs (20_memory.md R48), refused
in the cases of 60_exceptions.md R152 and in no other. -/
def sampleEnc (s : State) : Host.Outcome State Fault Refusal :=
  match s.sampling with
  | .early => .refused .sampledBeforeSettled
  | .settled =>
    match s.encWordNow with
    | some w => .next (s.putEncSample w)
    | none => .refused s.inputRefusal

/-- Sample the four `dec_*` outputs together (70_reset_and_hazards.md R164, 20_memory.md R48), refused in the cases of
60_exceptions.md R152 and in no other. -/
def sampleDec (s : State) : Host.Outcome State Fault Refusal :=
  match s.sampling with
  | .early => .refused .sampledBeforeSettled
  | .settled =>
    match s.decOutputsNow with
    | some x => .next (s.putDecSample x)
    | none => .refused s.inputRefusal

/-- The next record the surrounding system presents, and the state without it. The block has no program counter and
fetches nothing (10_state.md R21); the order is the surrounding system's. -/
def nextRecord (s : State) : Option (Record × State) :=
  match s.pending with
  | [] => none
  | r :: rest => some (r, s.putPending rest)

/-- Present the record whose bits are `bits` next, before those already waiting. -/
def presentBits (bits : Nat) (s : State) : State :=
  s.putPending (recordOfBits bits :: s.pending)

end Sys2Proof.Machine
end

