-- ==== Sys2Proof/Machine/Dec.lean ====
section
/-! DEFINITION. The format DEC family: DECODE (41_decode.md R100). -/

namespace Sys2Proof.Machine

/-- DECODE `w` (41_decode.md R100 to R104): drive `dec_word` and sample the four `dec_*` outputs. It writes no flag,
raises no exception and leaves the ENCODE side alone (R105; 10_state.md R31). -/
def execDecode (w : Drive) (s : State) : Host.Outcome State Fault Refusal :=
  sampleDec (s.driveDec w)

end Sys2Proof.Machine
end

