-- ==== Sys2Proof/Machine/Enc.lean ====
section
/-! DEFINITION. The format ENC family: ENCODE (40_encode.md R80). -/

namespace Sys2Proof.Machine

/-- ENCODE `t, f, d, o` (40_encode.md R80, R81): drive the four `enc_*` inputs and sample `enc_word`. It writes no flag,
raises no exception, checks no range and leaves the DECODE side alone (R84; 10_state.md R31). -/
def execEncode (t f d o : Drive) (s : State) : Host.Outcome State Fault Refusal :=
  sampleEnc (s.driveEnc t f d o)

end Sys2Proof.Machine
end

