-- ==== Sys2Proof/Machine/Dispatch.lean ====
section
/-! DEFINITION. One arm per constructor of `Instr`, each one call of its meaning. -/

namespace Sys2Proof.Machine

def exec (i : Instr) (s : State) : Host.Outcome State Fault Refusal :=
  match i with
  | .encode t f d o => Sys2Proof.Machine.execEncode t f d o s
  | .decode w => Sys2Proof.Machine.execDecode w s

end Sys2Proof.Machine
end

