-- ==== Sys2Proof/Machine/Step.lean ====
section
/-! DEFINITION. One step: the next transaction of the surrounding system, evaluated as one atomic step
(00_scope.md R12, 20_memory.md R48). -/

namespace Sys2Proof.Machine

/-- One step. With no record waiting nothing is evaluated and nothing changes (10_state.md R20, R21; log entry 10). -/
def step (s : State) : Host.Outcome State Fault Refusal :=
  match nextRecord s with
  | none => .next s
  | some (r, s') =>
    match decode r with
    | .ok i => exec i s'
    | .error _ => .refused .notATransaction

/-- The state in which the next step runs the transaction whose lowest `nbits` bits are `w`, the others 0: its record
stands first among those the surrounding system presents (log entry 10). -/
def State.withFetchWord (s : State) (nbits w : Nat) : State :=
  presentBits (w % 2 ^ nbits) s

end Sys2Proof.Machine
end

