-- ==== Sys2Proof/Machine/Flags.lean ====
section
/-! DEFINITION. The block has no flags, condition codes or predicates, and no operation reports carry, overflow,
truncation or field overflow (10_state.md R22; 40_encode.md R84; 41_decode.md R105), so no flag is computed by any
meaning. This file holds the conditions the spec defines about values and the block does not report: a surrounding
system that checks ranges uses the first of them (92_eei_decisions.md D10). -/

namespace Sys2Proof.Machine

/-- The ENCODE inputs are in range: no field overflow occurs (40_encode.md R85). -/
def inRange (t f d o : Word) : Bool :=
  decide (t.toNat < 2 ^ 32) && decide (f.toNat < 2 ^ 96) && decide (d.toNat < 2 ^ 96) && decide (o.toNat < 2 ^ 96)

/-- The low 32 bits of a decoded deposit and owed_deposit are 0 (10_state.md R28): a canonical tuple
(42_roundtrip.md R130). -/
def DecodeOutputs.canonical (x : DecodeOutputs) : Bool :=
  decide (x.deposit.extractLsb' 0 32 = 0#32) && decide (x.owedDeposit.extractLsb' 0 32 = 0#32)

end Sys2Proof.Machine
end

