-- ==== Sys2Proof/Machine/Structure.lean ====
section
/-! DEFINITION. The structural realisation 30_encoding.md R68 names beside fixed wiring: each constant shift as a
barrel-shifter cascade whose stage selects are tied to the constant amount. Only the bit equations of R66 and R67 are
normative; the meanings do not use this file, and a statement says that this layout conforms (log entry 14). -/

namespace Sys2Proof.Machine

/-- The stages of a 256-bit barrel shifter: stage `k` shifts by `2 ^ k`. The largest comes first, as R68 lists
them for 224 = 128 + 64 + 32. -/
def barrelStages : List Nat :=
  [7, 6, 5, 4, 3, 2, 1, 0]

/-- One stage of a left shifter: a multiplexer between its input and the input shifted by `2 ^ k`, selected by bit `k`
of the amount. -/
def barrelStageLeft (amount : BitVec 8) (x : Word) (k : Nat) : Word :=
  if amount.getLsbD k then x <<< (2 ^ k) else x

/-- One stage of a right shifter. -/
def barrelStageRight (amount : BitVec 8) (x : Word) (k : Nat) : Word :=
  if amount.getLsbD k then x >>> (2 ^ k) else x

/-- A left barrel-shifter cascade with its selects tied to `amount`. -/
def barrelLeft (amount : BitVec 8) (x : Word) : Word :=
  barrelStages.foldl (barrelStageLeft amount) x

/-- A right barrel-shifter cascade with its selects tied to `amount`. -/
def barrelRight (amount : BitVec 8) (x : Word) : Word :=
  barrelStages.foldl (barrelStageRight amount) x

/-- ENCODE from barrel-shifter cascades and an OR tree (R68, R64). -/
def encBarrel (t f d o : Word) : Word :=
  (barrelLeft 224 t ||| barrelLeft 128 f) ||| (barrelLeft 64 (barrelRight 32 d) ||| barrelRight 32 o)

/-- DECODE from barrel-shifter cascades and masks (R68, R65); each output takes the low bits of its cascade. -/
def decBarrel (w : Word) : DecodeOutputs where
  timestamp := (barrelRight 224 w).setWidth 32
  flowRate := (barrelRight 128 w &&& BitVec.ofNat 256 (2 ^ 96 - 1)).setWidth 96
  deposit := (barrelLeft 32 (barrelRight 64 w &&& BitVec.ofNat 256 (2 ^ 64 - 1))).setWidth 96
  owedDeposit := (barrelLeft 32 (w &&& BitVec.ofNat 256 (2 ^ 64 - 1))).setWidth 96

end Sys2Proof.Machine
end

