-- ==== Sys2Proof/Config.lean ====
section
/-! DEFINITION. The parameters of the block: the fixed ones of 00_scope.md R6 and the type of the one open
parameter a model can take as an argument (R7). `T_PD`, the other open parameter, is a time: R167 gives the
model no notion of time and R7 lets a model omit it (log entry 12). The spec leaves no result of the block
open ("No value in the spec is `any value`", 93_implementation_defined.md section 2), so no free value is here. -/

namespace Sys2Proof.Config

/-- Width of the packed word. -/
abbrev wordW : Nat := 256
/-- Width of the timestamp field. -/
abbrev tsW : Nat := 32
/-- Lowest bit of the timestamp field. -/
abbrev tsLsb : Nat := 224
/-- Width of the flow_rate field. -/
abbrev frW : Nat := 96
/-- Lowest bit of the flow_rate field. -/
abbrev frLsb : Nat := 128
/-- Width of the deposit field. -/
abbrev depW : Nat := 64
/-- Lowest bit of the deposit field. -/
abbrev depLsb : Nat := 64
/-- Width of the owed_deposit field. -/
abbrev owdW : Nat := 64
/-- Lowest bit of the owed_deposit field. -/
abbrev owdLsb : Nat := 0
/-- How many low bits of deposit and owed_deposit are not stored. -/
abbrev trunc : Nat := 32
/-- Width of each ENCODE input port (decision D3). -/
abbrev inW : Nat := 256

/-- The two values of the open parameter `SERIAL_BYTE_ORDER` (20_memory.md R45, decision D13): the order in which
a surrounding system stores or sends the bytes of a packed word. It is an argument of `Machine.serialBytes` and
nothing else reads it (log entry 13). -/
inductive ByteOrder where
  | leastSignificantFirst
  | mostSignificantFirst
  deriving DecidableEq, Repr

end Sys2Proof.Config
end

