-- ==== Sys2Proof/Machine/Views.lean ====
section
/-! DEFINITION. Two ways a surrounding system looks at a packed word: as four limbs (20_memory.md R44) and as 32 bytes
in a byte order it chooses (R45). The block has neither interface; no meaning reads this file. -/

namespace Sys2Proof.Machine

/-- Limb `k` is `w[64k+63 : 64k]`, limb 0 least significant (R44, decision D9). -/
def limb (k : Fin 4) (w : Word) : Limb :=
  w.extractLsb' (64 * k.val) 64

/-- The word whose limbs, least significant first, are these (R44). -/
def ofLimbs (l0 l1 l2 l3 : Limb) : Word :=
  l3 ++ l2 ++ l1 ++ l0

/-- The low `n` bytes of a word, least significant first. -/
def bytesUpward : Nat → Nat → List (BitVec 8)
  | 0, _ => []
  | n + 1, v => BitVec.ofNat 8 v :: bytesUpward n (v / 2 ^ 8)

/-- The number whose bytes, least significant first, are these. -/
def natOfBytesUpward : List (BitVec 8) → Nat
  | [] => 0
  | b :: rest => b.toNat + 2 ^ 8 * natOfBytesUpward rest

/-- The 32 bytes of a packed word as a surrounding system stores or sends them, in the order of the open parameter
`SERIAL_BYTE_ORDER` (R45; log entry 13). -/
def serialBytes (order : Config.ByteOrder) (w : Word) : List (BitVec 8) :=
  match order with
  | .leastSignificantFirst => bytesUpward 32 w.toNat
  | .mostSignificantFirst => (bytesUpward 32 w.toNat).reverse

/-- The packed word that 32 bytes stand for in that order (R45). -/
def ofSerialBytes (order : Config.ByteOrder) (bytes : List (BitVec 8)) : Word :=
  match order with
  | .leastSignificantFirst => BitVec.ofNat 256 (natOfBytesUpward bytes)
  | .mostSignificantFirst => BitVec.ofNat 256 (natOfBytesUpward bytes.reverse)

end Sys2Proof.Machine
end

