-- ==== Sys2Proof/Safety.lean ====
section
/-! DEFINITION. The terms claims are stated in: what an evaluation gives, which transactions can only end normally,
and the invariants of the surrounding system's side of the ports. -/

namespace Sys2Proof

/-- Every operand is a two-valued constant: a transaction as 30_encoding.md R72 writes it. -/
def Instr.constant : Instr → Bool
  | .encode (.value _) (.value _) (.value _) (.value _) => true
  | .encode _ _ _ _ => false
  | .decode (.value _) => true
  | .decode _ => false

end Sys2Proof

namespace Sys2Proof.Machine

/-- `E(t, f, d, o) = e` (42_roundtrip.md): from every state whose outputs are sampled once settled, ENCODE of these
constants answers a next state and the sampled `enc_word` is `e`. -/
def EncodeGives (t f d o e : Word) : Prop :=
  ∀ s : State, s.sampling = .settled →
    ∃ u, exec (.encode (.value t) (.value f) (.value d) (.value o)) s = .next u ∧ u.sampledEncWord = some e

/-- `D(w) = x` (42_roundtrip.md): from every state whose outputs are sampled once settled, DECODE of this constant
answers a next state and the sampled `dec_*` outputs are `x`. -/
def DecodeGives (w : Word) (x : DecodeOutputs) : Prop :=
  ∀ s : State, s.sampling = .settled →
    ∃ u, exec (.decode (.value w)) s = .next u ∧ u.sampledDec = some x

/-- Two states in which the surrounding system does the same at the block's inputs; they may differ in what it sampled
before and in what it will present later. -/
def SameInputs (s₁ s₂ : State) : Prop :=
  s₁.encTimestamp = s₂.encTimestamp ∧ s₁.encFlowRate = s₂.encFlowRate ∧ s₁.encDeposit = s₂.encDeposit ∧
    s₁.encOwedDeposit = s₂.encOwedDeposit ∧ s₁.decWord = s₂.decWord ∧ s₁.sampling = s₂.sampling

/-- No port shows an input without its output (20_memory.md R48, 10_state.md R24): where the inputs of a datapath are
constants, its last sample is its function of them. -/
def SamplesMatchInputs (s : State) : Prop :=
  (∀ t f d o, s.encTimestamp = .value t → s.encFlowRate = .value f → s.encDeposit = .value d →
      s.encOwedDeposit = .value o → s.sampledEncWord = some (encDatapath t f d o)) ∧
    ∀ w, s.decWord = .value w → s.sampledDec = some (decDatapath w)

/-- Every sampled deposit and owed_deposit has its low 32 bits 0 (10_state.md R28), wired inputs included. -/
def SampleCanonical (s : State) : Prop :=
  ∀ x, s.sampledDec = some x → x.canonical = true

/-- Every waiting record is a transaction whose operands are constants: nothing 60_exceptions.md R152 refuses. -/
def PendingConstant (s : State) : Prop :=
  ∀ r ∈ s.pending, ∃ i, decode r = .ok i ∧ i.constant = true

end Sys2Proof.Machine
end

