-- ==== Sys2Proof/Certificates/Slice0/Obligations.lean ====
section
/-! DEFINITION. The statements for the provers, from the numbered rules of spec/. `EncodeGives`, `DecodeGives` say what
an evaluation answers from every state whose outputs are sampled once settled; the State of the model is the
surrounding system's side of the ports, since the block holds none (log entry 1); that a transaction drives its own
inputs and samples its own outputs only, which the frames say, is log entry 11. -/

open Sys2Proof Sys2Proof.Machine

/-! ## What one transaction does -/

/-- R81: `enc_word <- trunc_256((t << 224) | (f << 128) | ((d >> 32) << 64) | (o >> 32))`, on unbounded naturals. That
nothing else of the state changes but the four inputs the transaction drives, which stay driven, is the model's choice
(log entry 11). -/
def Obligations.EncodeSamplesTruncatedUnion : Prop :=
  ∀ (t f d o : Word) (s : State), s.sampling = .settled →
    exec (.encode (.value t) (.value f) (.value d) (.value o)) s =
      .next { s with
        encTimestamp := .value t, encFlowRate := .value f, encDeposit := .value d, encOwedDeposit := .value o,
        sampledEncWord := some (BitVec.ofNat 256
          (((t.toNat <<< 224) ||| (f.toNat <<< 128) ||| ((d.toNat >>> 32) <<< 64) ||| (o.toNat >>> 32)) % 2 ^ 256)) }

/-- R65: each output as the document writes it and as a slice. That nothing else of the state changes but the input the
transaction drives, which stays driven, is the model's choice (log entry 11). -/
def Obligations.DecodeSamplesFourFields : Prop :=
  ∀ (w : Word) (s : State), s.sampling = .settled →
    ∃ x : DecodeOutputs,
      exec (.decode (.value w)) s = .next { s with decWord := .value w, sampledDec := some x } ∧
        x.timestamp.toNat = w.toNat >>> 224 ∧
        x.flowRate.toNat = (w.toNat >>> 128) &&& (2 ^ 96 - 1) ∧
        x.deposit.toNat = ((w.toNat >>> 64) &&& (2 ^ 64 - 1)) <<< 32 ∧
        x.owedDeposit.toNat = (w.toNat &&& (2 ^ 64 - 1)) <<< 32 ∧
        x.timestamp = w.extractLsb' 224 32 ∧
        x.flowRate = w.extractLsb' 128 96 ∧
        x.deposit = w.extractLsb' 64 64 ++ 0#32 ∧
        x.owedDeposit = w.extractLsb' 0 64 ++ 0#32

/-- R66: the ENCODE bit equation, and the rule's table of the four bit ranges. -/
def Obligations.EncodeBitEquation : Prop :=
  ∀ t f d o : Word, ∃ e : Word, EncodeGives t f d o e ∧
    (∀ i : Nat, i < 256 →
      e.getLsbD i =
        ((if 224 ≤ i then t.getLsbD (i - 224) else false) ||
          (if 128 ≤ i then f.getLsbD (i - 128) else false) ||
          (if 64 ≤ i then d.getLsbD (i - 32) else false) ||
          (if i < 224 then o.getLsbD (i + 32) else false))) ∧
    e.extractLsb' 0 64 = o.extractLsb' 32 64 ∧
    e.extractLsb' 64 64 = d.extractLsb' 32 64 ||| o.extractLsb' 96 64 ∧
    e.extractLsb' 128 96 = f.extractLsb' 0 96 ||| d.extractLsb' 96 96 ||| o.extractLsb' 160 96 ∧
    e.extractLsb' 224 32 = t.extractLsb' 0 32 ||| f.extractLsb' 96 32 ||| d.extractLsb' 192 32

/-- The DECODE bit equation, which the spec derives as R67 from R65. -/
def Obligations.DecodeBitEquation : Prop :=
  ∀ w : Word, ∃ x : DecodeOutputs, DecodeGives w x ∧
    (∀ j : Nat, j < 32 → x.timestamp.getLsbD j = w.getLsbD (224 + j)) ∧
    (∀ j : Nat, j < 96 → x.flowRate.getLsbD j = w.getLsbD (128 + j)) ∧
    (∀ j : Nat, j < 96 → x.deposit.getLsbD j = if j < 32 then false else w.getLsbD (32 + j)) ∧
    (∀ j : Nat, j < 96 → x.owedDeposit.getLsbD j = if j < 32 then false else w.getLsbD (j - 32))

/-- The four 256-bit terms of R82 and their OR, with R83's example where addition would give `2^225`; both rules are
inferences the spec draws from R81. -/
def Obligations.EncodeIsBitwiseOrOfFourTerms : Prop :=
  (∀ t f d o : Word,
    EncodeGives t f d o
      ((t.extractLsb' 0 32 ++ 0#224 : Word) ||| (f.extractLsb' 0 128 ++ 0#128 : Word) |||
        (d.extractLsb' 32 192 ++ 0#64 : Word) ||| (0#32 ++ o.extractLsb' 32 224 : Word))) ∧
    EncodeGives 1 (BitVec.ofNat 256 (2 ^ 96)) 0 0 (BitVec.ofNat 256 (2 ^ 224))

/-- R85: in range, `enc_word` is the concatenation, its value is the sum of the four placed fields, and the four terms
have no set bit in common. -/
def Obligations.EncodeInRangeIsConcatenation : Prop :=
  ∀ t f d o : Word,
    t.toNat < 2 ^ 32 → f.toNat < 2 ^ 96 → d.toNat < 2 ^ 96 → o.toNat < 2 ^ 96 →
    ∃ e : Word, EncodeGives t f d o e ∧
      e = t.extractLsb' 0 32 ++ f.extractLsb' 0 96 ++ d.extractLsb' 32 64 ++ o.extractLsb' 32 64 ∧
      e.toNat = t.toNat * 2 ^ 224 + f.toNat * 2 ^ 128 + d.toNat / 2 ^ 32 * 2 ^ 64 + o.toNat / 2 ^ 32 ∧
      (t.extractLsb' 0 32 ++ 0#224 : Word) &&& (f.extractLsb' 0 128 ++ 0#128 : Word) = 0 ∧
      (t.extractLsb' 0 32 ++ 0#224 : Word) &&& (d.extractLsb' 32 192 ++ 0#64 : Word) = 0 ∧
      (t.extractLsb' 0 32 ++ 0#224 : Word) &&& (0#32 ++ o.extractLsb' 32 224 : Word) = 0 ∧
      (f.extractLsb' 0 128 ++ 0#128 : Word) &&& (d.extractLsb' 32 192 ++ 0#64 : Word) = 0 ∧
      (f.extractLsb' 0 128 ++ 0#128 : Word) &&& (0#32 ++ o.extractLsb' 32 224 : Word) = 0 ∧
      (d.extractLsb' 32 192 ++ 0#64 : Word) &&& (0#32 ++ o.extractLsb' 32 224 : Word) = 0

/-- R86, its whole table: the in-range word, ORed with the overflow bits of `f` and `d` at the timestamp field, of `d`
and `o` at the flow_rate field and of `o` at the deposit field; the bits the table calls lost do not occur. -/
def Obligations.EncodeOverflowLandsByTable : Prop :=
  ∀ t f d o : Word,
    EncodeGives t f d o
      ((t.extractLsb' 0 32 ++ f.extractLsb' 0 96 ++ d.extractLsb' 32 64 ++ o.extractLsb' 32 64 : Word) |||
        ((f.extractLsb' 96 32 ||| d.extractLsb' 192 32) ++
          ((d.extractLsb' 128 64 ++ d.extractLsb' 96 32 : BitVec 96) ||| o.extractLsb' 160 96) ++
          o.extractLsb' 96 64 ++ 0#64 : Word))

/-- In range, two ENCODE words are equal exactly when the timestamps, the flow rates and the stored parts of the
deposits are: the spec's inference R129. -/
def Obligations.EncodeInRangeEqualWords : Prop :=
  ∀ t f d o t' f' d' o' : Word,
    inRange t f d o = true → inRange t' f' d' o' = true →
    ∃ e e' : Word, EncodeGives t f d o e ∧ EncodeGives t' f' d' o' e' ∧
      (e = e' ↔ t = t' ∧ f = f' ∧ d.toNat / 2 ^ 32 = d'.toNat / 2 ^ 32 ∧ o.toNat / 2 ^ 32 = o'.toNat / 2 ^ 32)

/-! ## Frames, completion of every operand form, refusals -/

/-- R84: ENCODE raises no exception and answers a next state for every input value. The frame over the surrounding
system's side is the model's choice (log entry 11): in every operand form only its four inputs, which stay driven, and
its own sample change, and the DECODE sample is kept even where `enc_word` drives `dec_word`. -/
def Obligations.EncodeHasNoSideEffect : Prop :=
  (∀ (t f d o : Word) (s : State), s.sampling = .settled →
    ∃ u, exec (.encode (.value t) (.value f) (.value d) (.value o)) s = .next u) ∧
  ∀ (t f d o : Drive) (s : State),
    (∀ r, exec (.encode t f d o) s ≠ .fault r) ∧
    ∀ u, exec (.encode t f d o) s = .next u →
      u.encTimestamp = t ∧ u.encFlowRate = f ∧ u.encDeposit = d ∧ u.encOwedDeposit = o ∧
      u.sampledEncWord = u.encWordNow ∧ u.sampledEncWord.isSome = true ∧
      u.decWord = s.decWord ∧ u.sampledDec = s.sampledDec ∧ u.sampling = s.sampling ∧ u.pending = s.pending ∧
      (s.decWord ≠ .wired → u.decOutputsNow = s.decOutputsNow)

/-- R105: DECODE raises no exception and answers a next state for every input. The frame over the surrounding system's
side is the model's choice (log entry 11): in every operand form only its input, which stays driven, and its own sample
change, and the ENCODE sample is kept even where a `dec_*` output drives an `enc_*` input. -/
def Obligations.DecodeHasNoSideEffect : Prop :=
  (∀ (w : Word) (s : State), s.sampling = .settled → ∃ u, exec (.decode (.value w)) s = .next u) ∧
  ∀ (w : Drive) (s : State),
    (∀ r, exec (.decode w) s ≠ .fault r) ∧
    ∀ u, exec (.decode w) s = .next u →
      u.decWord = w ∧ u.sampledDec = u.decOutputsNow ∧ u.sampledDec.isSome = true ∧
      u.encTimestamp = s.encTimestamp ∧ u.encFlowRate = s.encFlowRate ∧ u.encDeposit = s.encDeposit ∧
      u.encOwedDeposit = s.encOwedDeposit ∧ u.sampledEncWord = s.sampledEncWord ∧ u.sampling = s.sampling ∧
      u.pending = s.pending ∧
      (s.encTimestamp ≠ .wired → s.encFlowRate ≠ .wired → s.encDeposit ≠ .wired → s.encOwedDeposit ≠ .wired →
        u.encWordNow = s.encWordNow)

/-- ENCODE with each operand a constant or a wire completes while `dec_word` carries a constant: a wired input carries
the `dec_*` output of its name, zero-extended (R165). Wires on some of the four inputs only are the model's reading
(log entry 7), and the frame is its choice (log entry 11). -/
def Obligations.EncodeWiredOperandsComplete : Prop :=
  ∀ (t f d o : Drive) (a b c e w : Word) (s : State),
    s.sampling = .settled → s.decWord = .value w →
    (t = .value a ∨ (t = .wired ∧ a = (w.extractLsb' 224 32).setWidth 256)) →
    (f = .value b ∨ (f = .wired ∧ b = (w.extractLsb' 128 96).setWidth 256)) →
    (d = .value c ∨ (d = .wired ∧ c = (w.extractLsb' 64 64 ++ 0#32).setWidth 256)) →
    (o = .value e ∨ (o = .wired ∧ e = (w.extractLsb' 0 64 ++ 0#32).setWidth 256)) →
    exec (.encode t f d o) s =
      .next { s with
        encTimestamp := t, encFlowRate := f, encDeposit := d, encOwedDeposit := o,
        sampledEncWord := some (encDatapath a b c e) }

/-- DECODE of a wired `dec_word` completes while the four `enc_*` inputs carry constants: it decodes `enc_word`
(R165); the frame is the model's choice (log entry 11). -/
def Obligations.DecodeWiredOperandCompletes : Prop :=
  ∀ (t f d o : Word) (s : State), s.sampling = .settled →
    s.encTimestamp = .value t → s.encFlowRate = .value f → s.encDeposit = .value d → s.encOwedDeposit = .value o →
    exec (.decode .wired) s =
      .next { s with decWord := .wired, sampledDec := some (decDatapath (encDatapath t f d o)) }

/-- With all four `dec_*` outputs driving the ENCODE inputs, `enc_word` is `dec_word` (R165). -/
def Obligations.WiredDecodeToEncodeGivesWord : Prop :=
  ∀ (w : Word) (s : State), s.sampling = .settled → s.decWord = .value w →
    ∃ u, exec (.encode .wired .wired .wired .wired) s = .next u ∧ u.sampledEncWord = some w

/-- ENCODE is refused in the cases of R152, as the model reads them, and in no other. Which name is given where two apply
is the model's choice (log entry 5), that a bit read only through a wire refuses is its reading (log entry 6), and so is
that any one wired `enc_*` input with a wired `dec_word` closes the loop (log entry 7). -/
def Obligations.EncodeRefusedExactly : Prop :=
  ∀ (t f d o : Drive) (s : State) (r : Refusal),
    exec (.encode t f d o) s = .refused r ↔
      (s.sampling = .early ∧ r = .sampledBeforeSettled) ∨
      (s.sampling = .settled ∧
        ((s.decWord = .wired ∧ (t = .wired ∨ f = .wired ∨ d = .wired ∨ o = .wired) ∧ r = .combinationalLoop) ∨
          (¬(s.decWord = .wired ∧ (t = .wired ∨ f = .wired ∨ d = .wired ∨ o = .wired)) ∧
            ((t = .notTwoValued ∨ f = .notTwoValued ∨ d = .notTwoValued ∨ o = .notTwoValued) ∨
              (s.decWord = .notTwoValued ∧ (t = .wired ∨ f = .wired ∨ d = .wired ∨ o = .wired))) ∧
            r = .inputNotTwoValued)))

/-- DECODE is refused in the cases of R152, as the model reads them, and in no other. Which name is given where two apply
is the model's choice (log entry 5), that a bit read only through a wire refuses is its reading (log entry 6), and so is
that any one wired `enc_*` input with a wired `dec_word` closes the loop (log entry 7). -/
def Obligations.DecodeRefusedExactly : Prop :=
  ∀ (w : Drive) (s : State) (r : Refusal),
    exec (.decode w) s = .refused r ↔
      (s.sampling = .early ∧ r = .sampledBeforeSettled) ∨
      (s.sampling = .settled ∧
        ((w = .wired ∧
            (s.encTimestamp = .wired ∨ s.encFlowRate = .wired ∨ s.encDeposit = .wired ∨ s.encOwedDeposit = .wired) ∧
            r = .combinationalLoop) ∨
          (w = .notTwoValued ∧ r = .inputNotTwoValued) ∨
          (w = .wired ∧
            s.encTimestamp ≠ .wired ∧ s.encFlowRate ≠ .wired ∧ s.encDeposit ≠ .wired ∧ s.encOwedDeposit ≠ .wired ∧
            (s.encTimestamp = .notTwoValued ∨ s.encFlowRate = .notTwoValued ∨ s.encDeposit = .notTwoValued ∨
              s.encOwedDeposit = .notTwoValued) ∧
            r = .inputNotTwoValued)))

/-! ## The laws of ENCODE and DECODE together -/

/-- `E(D(w)) = w` (the spec's inference R120). -/
def Obligations.EncodeAfterDecodeIsIdentity : Prop :=
  ∀ w : Word, ∃ x : DecodeOutputs, DecodeGives w x ∧
    EncodeGives (x.timestamp.setWidth 256) (x.flowRate.setWidth 256) (x.deposit.setWidth 256)
      (x.owedDeposit.setWidth 256) w

/-- DECODE is injective and ENCODE reaches every word (the spec's inference R121). -/
def Obligations.DecodeInjectiveEncodeSurjective : Prop :=
  (∀ (w₁ w₂ : Word) (x : DecodeOutputs), DecodeGives w₁ x → DecodeGives w₂ x → w₁ = w₂) ∧
    ∀ w : Word, ∃ t f d o : Word, EncodeGives t f d o w

/-- `D(E(t, f, d, o))` for every four inputs (the spec's inference R122). -/
def Obligations.DecodeAfterEncodeInGeneral : Prop :=
  ∀ t f d o : Word, ∃ e : Word, EncodeGives t f d o e ∧
    DecodeGives e
      { timestamp := t.extractLsb' 0 32 ||| f.extractLsb' 96 32 ||| d.extractLsb' 192 32
        flowRate := f.extractLsb' 0 96 ||| d.extractLsb' 96 96 ||| o.extractLsb' 160 96
        deposit := (d.extractLsb' 32 64 ||| o.extractLsb' 96 64) ++ 0#32
        owedDeposit := o.extractLsb' 32 64 ++ 0#32 }

/-- `D(E(t, f, d, o))` in range: exact but for the low 32 bits of the deposits (the spec's inference R123). -/
def Obligations.RoundTripInRangeTruncates : Prop :=
  ∀ t f d o : Word, inRange t f d o = true →
    ∃ (e : Word) (x : DecodeOutputs), EncodeGives t f d o e ∧ DecodeGives e x ∧
      x.timestamp.toNat = t.toNat ∧ x.flowRate.toNat = f.toNat ∧
      x.deposit.toNat = d.toNat - d.toNat % 2 ^ 32 ∧ x.owedDeposit.toNat = o.toNat - o.toNat % 2 ^ 32

/-- The exact domain of the document's property 1 (the spec's inference R124). -/
def Obligations.TruncatedRoundTripDomain : Prop :=
  ∀ t f d o : Word, ∃ (e : Word) (x : DecodeOutputs), EncodeGives t f d o e ∧ DecodeGives e x ∧
    (x.deposit.toNat = d.toNat - d.toNat % 2 ^ 32 ↔
      d.toNat < 2 ^ 96 ∧ o.extractLsb' 96 64 &&& ~~~(d.extractLsb' 32 64) = 0) ∧
    (x.owedDeposit.toNat = o.toNat - o.toNat % 2 ^ 32 ↔ o.toNat < 2 ^ 96) ∧
    x.owedDeposit.toNat = o.toNat % 2 ^ 96 - o.toNat % 2 ^ 32

/-- The domain of the document's property 2 and the counterexample outside it (the spec's inference R125). -/
def Obligations.ExactRoundTripDomain : Prop :=
  (∀ t f d o : Word, t.toNat < 2 ^ 32 → f.toNat < 2 ^ 96 →
    ∃ (e : Word) (x : DecodeOutputs), EncodeGives t f d o e ∧ DecodeGives e x ∧
      x.timestamp.setWidth 256 = t ||| (d.extractLsb' 192 32).setWidth 256 ∧
      x.flowRate.setWidth 256 = f ||| (d.extractLsb' 96 96).setWidth 256 ||| (o.extractLsb' 160 96).setWidth 256 ∧
      (d.toNat < 2 ^ 192 → x.timestamp.toNat = t.toNat) ∧
      (d.toNat < 2 ^ 96 → o.toNat < 2 ^ 160 → x.flowRate.toNat = f.toNat)) ∧
    ∃ (e : Word) (x : DecodeOutputs), EncodeGives 0 0 (BitVec.ofNat 256 (2 ^ 96)) 0 e ∧ DecodeGives e x ∧
      x.flowRate = 1

/-- In range each decoded field depends on its own input alone (the spec's inference R126). -/
def Obligations.FieldsIsolatedInRange : Prop :=
  ∀ t f d o t' f' d' o' : Word, inRange t f d o = true → inRange t' f' d' o' = true →
    ∃ (e e' : Word) (x x' : DecodeOutputs),
      EncodeGives t f d o e ∧ DecodeGives e x ∧ EncodeGives t' f' d' o' e' ∧ DecodeGives e' x' ∧
      (x.timestamp = x'.timestamp ↔ t = t') ∧ (x.flowRate = x'.flowRate ↔ f = f') ∧
      (x.deposit = x'.deposit ↔ d.extractLsb' 32 64 = d'.extractLsb' 32 64) ∧
      (x.owedDeposit = x'.owedDeposit ↔ o.extractLsb' 32 64 = o'.extractLsb' 32 64)

/-- The document's scenario, with the constants the spec computes for it (the spec's inference R127). -/
def Obligations.DocumentScenario : Prop :=
  EncodeGives 1618876800 1234000000000000000000 5678000000000000000000 9012000000000000000000
      0x607e198000000042e530adfce008000000000133ce1444aa000001e88a9fac60 ∧
    DecodeGives 0x607e198000000042e530adfce008000000000133ce1444aa000001e88a9fac60
      { timestamp := 1618876800, flowRate := 1234000000000000000000,
        deposit := 5677999999997114843136, owedDeposit := 9011999999997109075968 }

/-- The DECODE outputs are exactly the canonical tuples, and each is decoded from its own encoding (the spec's
inference R130). -/
def Obligations.DecodeOutputsAreCanonicalTuples : Prop :=
  ∀ x : DecodeOutputs,
    ((∃ w : Word, DecodeGives w x) ↔ x.deposit.toNat % 2 ^ 32 = 0 ∧ x.owedDeposit.toNat % 2 ^ 32 = 0) ∧
    (x.deposit.toNat % 2 ^ 32 = 0 → x.owedDeposit.toNat % 2 ^ 32 = 0 →
      ∃ e : Word, EncodeGives (x.timestamp.setWidth 256) (x.flowRate.setWidth 256) (x.deposit.setWidth 256)
        (x.owedDeposit.setWidth 256) e ∧ DecodeGives e x)

/-- Where the unbounded result of the document's source stays below `2^256`, the block agrees with it and with the
source's decode (the spec's inference and decision R90). -/
def Obligations.AgreesWithUnboundedSource : Prop :=
  ∀ t f d o : Word,
    (t.toNat <<< 224) ||| (f.toNat <<< 128) ||| ((d.toNat >>> 32) <<< 64) ||| (o.toNat >>> 32) < 2 ^ 256 →
    ∃ (e : Word) (x : DecodeOutputs), EncodeGives t f d o e ∧ DecodeGives e x ∧
      e.toNat = (t.toNat <<< 224) ||| (f.toNat <<< 128) ||| ((d.toNat >>> 32) <<< 64) ||| (o.toNat >>> 32) ∧
      x.timestamp.toNat =
        ((t.toNat <<< 224) ||| (f.toNat <<< 128) ||| ((d.toNat >>> 32) <<< 64) ||| (o.toNat >>> 32)) >>> 224 ∧
      x.flowRate.toNat =
        (((t.toNat <<< 224) ||| (f.toNat <<< 128) ||| ((d.toNat >>> 32) <<< 64) ||| (o.toNat >>> 32)) >>> 128) &&&
          (2 ^ 96 - 1) ∧
      x.deposit.toNat =
        ((((t.toNat <<< 224) ||| (f.toNat <<< 128) ||| ((d.toNat >>> 32) <<< 64) ||| (o.toNat >>> 32)) >>> 64) &&&
          (2 ^ 64 - 1)) <<< 32 ∧
      x.owedDeposit.toNat =
        (((t.toNat <<< 224) ||| (f.toNat <<< 128) ||| ((d.toNat >>> 32) <<< 64) ||| (o.toNat >>> 32)) &&&
          (2 ^ 64 - 1)) <<< 32

/-! ## Ports -/

/-- R28: `dec_deposit[31:0]` and `dec_owed_deposit[31:0]` are constant 0 in every state in which the outputs have a
value, and bits [95:32] are the stored 64 bits. -/
def Obligations.DecodedLowBitsAlwaysZero : Prop :=
  ∀ (s : State) (x : DecodeOutputs), s.decOutputsNow = some x →
    x.deposit.extractLsb' 0 32 = 0#32 ∧ x.owedDeposit.extractLsb' 0 32 = 0#32 ∧
    ∀ w, s.decWord = .value w →
      x.deposit.extractLsb' 32 64 = w.extractLsb' 64 64 ∧ x.owedDeposit.extractLsb' 32 64 = w.extractLsb' 0 64

/-- The datapaths are independent (R31): with no wire on its inputs, each output is a function of the inputs of its own
datapath, whatever the rest of the state is. -/
def Obligations.DatapathsIndependent : Prop :=
  (∀ s₁ s₂ : State,
    s₁.encTimestamp = s₂.encTimestamp → s₁.encFlowRate = s₂.encFlowRate → s₁.encDeposit = s₂.encDeposit →
    s₁.encOwedDeposit = s₂.encOwedDeposit →
    s₁.encTimestamp ≠ .wired → s₁.encFlowRate ≠ .wired → s₁.encDeposit ≠ .wired → s₁.encOwedDeposit ≠ .wired →
    s₁.encWordNow = s₂.encWordNow) ∧
  ∀ s₁ s₂ : State, s₁.decWord = s₂.decWord → s₁.decWord ≠ .wired → s₁.decOutputsNow = s₂.decOutputsNow

/-- An ENCODE and a DECODE of constants give the same state in either order, with the results each gives alone (R31,
and the spec's inference R50). That each leaves the other's inputs and sample as they were is the model's choice (log
entry 11). -/
def Obligations.EncodeDecodeCommute : Prop :=
  ∀ (t f d o w : Word) (s : State), s.sampling = .settled →
    ∃ u₁ u₂ v : State,
      exec (.encode (.value t) (.value f) (.value d) (.value o)) s = .next u₁ ∧
      exec (.decode (.value w)) u₁ = .next v ∧
      exec (.decode (.value w)) s = .next u₂ ∧
      exec (.encode (.value t) (.value f) (.value d) (.value o)) u₂ = .next v ∧
      v.sampledEncWord = u₁.sampledEncWord ∧ v.sampledDec = u₂.sampledDec

/-- No transaction leaves anything that a later evaluation reads back (R20, R49): two states that differ only in what
was sampled and what waits give the same outcome, the same inputs and the same new sample. What a transaction
drives and samples is the model's choice (log entry 11). -/
def Obligations.NothingSampledIsReadBack : Prop :=
  ∀ (i : Instr) (s₁ s₂ : State), SameInputs s₁ s₂ →
    (∃ u₁ u₂, exec i s₁ = .next u₁ ∧ exec i s₂ = .next u₂ ∧ SameInputs u₁ u₂ ∧
      u₁.encWordNow = u₂.encWordNow ∧ u₁.decOutputsNow = u₂.decOutputsNow ∧
      (∀ w, i = .decode w → u₁.sampledDec = u₂.sampledDec) ∧
      ∀ t f d o, i = .encode t f d o → u₁.sampledEncWord = u₂.sampledEncWord) ∨
    ∃ r, exec i s₁ = .refused r ∧ exec i s₂ = .refused r

/-- Every evaluation can be repeated with the same result (R49): run again in the state it left, a transaction leaves
that state. That its inputs stay driven is the model's choice (log entry 11). -/
def Obligations.EvaluationIsRepeatable : Prop :=
  ∀ (i : Instr) (s u : State), exec i s = .next u → exec i u = .next u

/-- Right after reset no output has a value of its own and nothing was sampled (the model's choice, log entries 2 and
3), and the first evaluation gives what any later one gives (R160, R162). It completes because the surrounding system
waits for settling at reset, the model's choice (log entry 4); R162 is subject to R164. -/
def Obligations.FirstEvaluationAfterResetIsAsAnyOther : Prop :=
  State.reset.encWordNow = none ∧ State.reset.decOutputsNow = none ∧
  State.reset.sampledEncWord = none ∧ State.reset.sampledDec = none ∧
  ∀ (i : Instr) (s : State), i.constant = true → s.sampling = .settled →
    ∃ u v, exec i State.reset = .next u ∧ exec i s = .next v ∧
      (∀ w, i = .decode w → u.sampledDec = v.sampledDec) ∧
      ∀ t f d o, i = .encode t f d o → u.sampledEncWord = v.sampledEncWord

/-! ## Steps and transaction records -/

/-- A step runs the decoded transaction of the next record; it refuses a record that is no transaction (the
model's choice, log entry 9), and with no record waiting it changes nothing (its choice, log entry 10). -/
def Obligations.StepRunsDecodedTransaction : Prop :=
  (∀ (s : State) (r : Record) (rest : List Record) (i : Instr), s.pending = r :: rest → decode r = .ok i →
    step s = exec i { s with pending := rest }) ∧
  (∀ (s : State) (r : Record) (rest : List Record) (e : DecodeError), s.pending = r :: rest → decode r = .error e →
    step s = .refused .notATransaction) ∧
  ∀ s : State, s.pending = [] → step s = .next s

/-- The transaction placed for the next step is the one that step runs, in the state it was placed in. The queue
is the model's choice (log entry 10), and so is the place of the operand bits (log entry 8). -/
def Obligations.FetchedWordRunsNext : Prop :=
  ∀ (s : State) (nbits w : Nat) (i : Instr), decodeTableWord nbits w = some i →
    step (s.withFetchWord nbits w) = exec i s

/-- The words of spec/opcode_table.json and of three encodings of 95_test_vectors.md section 5 decode to their
transactions. The spec gives `op` and the order of the operands; the place of the operand bits, on which the clauses on
bits rest, is the model's choice (log entry 8). -/
def Obligations.SpecRecordsDecode : Prop :=
  decodeTableWord 8 0 = some (.encode (.value 0) (.value 0) (.value 0) (.value 0)) ∧
  decodeTableWord 8 1 = some (.decode (.value 0)) ∧
  decode { op := 0, operands := [.value 0x64, .value 0x6, .value 0x1000000000000000100000000, .value 0] } =
    .ok (.encode (.value 0x64) (.value 0x6) (.value 0x1000000000000000100000000) (.value 0)) ∧
  decodeBits (2 * 0x7) = .ok (.encode (.value 0x7) (.value 0) (.value 0) (.value 0)) ∧
  decodeBits (1 + 2 * 0x8000000000000000000000000000000000000000000000000000000000000000) =
    .ok (.decode (.value 0x8000000000000000000000000000000000000000000000000000000000000000))

/-- R71: a record is a transaction exactly when it carries four operands for ENCODE or one for DECODE. -/
def Obligations.RecordShapeIsFixed : Prop :=
  ∀ r : Record, (∃ i, decode r = .ok i) ↔
    (r.op = 0 ∧ r.operands.length = 4) ∨ (r.op = 1 ∧ r.operands.length = 1)

/-- Bits decode to a transaction exactly when they are that transaction's bits: no bit of a record is dropped and none
has two meanings, for every operand value. The place of the operand bits is the model's choice
(log entry 8). -/
def Obligations.RecordBitsDecodeAndEncodeAgree : Prop :=
  (∀ (bits : Nat) (i : Instr), decodeBits bits = .ok i ↔ encodeBits i = some bits) ∧
  ∀ i : Instr, i.constant = true → ∃ bits, encodeBits i = some bits ∧ bits < 2 ^ 1025 ∧ decodeBits bits = .ok i

/-- R69: every 256-bit value is a DECODE input and every four are ENCODE inputs, through a step, whatever waits
behind. The queue and its rest are the model's choice (log entry 10), and so is that the inputs stay driven (log entry
11). -/
def Obligations.EveryTwoValuedRecordRuns : Prop :=
  (∀ (w : Word) (rest : List Record) (s : State), s.sampling = .settled →
    s.pending = { op := 1, operands := [.value w] } :: rest →
    ∃ u, step s = .next u ∧ u.decWord = .value w ∧ u.sampledDec = u.decOutputsNow ∧ u.pending = rest) ∧
  ∀ (t f d o : Word) (rest : List Record) (s : State), s.sampling = .settled →
    s.pending = { op := 0, operands := [.value t, .value f, .value d, .value o] } :: rest →
    ∃ u, step s = .next u ∧ u.encTimestamp = .value t ∧ u.encFlowRate = .value f ∧ u.encDeposit = .value d ∧
      u.encOwedDeposit = .value o ∧ u.sampledEncWord = u.encWordNow ∧ u.pending = rest

/-- Every queue of transactions on constants runs to its end, one step each, and leaves the outputs sampled as the
inputs have them (R151, R163). The queue is the model's choice (log entry 10), and so is that the inputs stay driven
(log entry 11). -/
def Obligations.ConstantTransactionsRunToTheEnd : Prop :=
  ∀ s : State, s.sampling = .settled → PendingConstant s → SamplesMatchInputs s →
    ∃ u, Sys2Proof.core.run s.pending.length s = .next u ∧ u.pending = [] ∧ SamplesMatchInputs u

/-- No step shows an input without its output, or an output computed from other inputs (R48), and every sampled deposit
and owed_deposit keeps its low 32 bits 0 (R28), over every operand form. That inputs stay driven and each transaction samples
its own outputs only is the model's choice (log entry 11). -/
def Obligations.StepKeepsSamplesConsistent : Prop :=
  ∀ s u : State, SamplesMatchInputs s ∧ SampleCanonical s → step s = .next u →
    SamplesMatchInputs u ∧ SampleCanonical u

/-- The invariant holds right after reset, where nothing is driven and nothing was sampled (the model's choice, log
entries 2 and 3). -/
def Obligations.ResetSamplesConsistent : Prop :=
  SamplesMatchInputs State.reset ∧ SampleCanonical State.reset

/-! ## Views and structure -/

/-- R44: the limbs make up the word with weights `2^(64k)`, and in range each holds what the rule's table says. -/
def Obligations.LimbsHoldTheFields : Prop :=
  (∀ w : Word,
    w.toNat = (limb 0 w).toNat + (limb 1 w).toNat * 2 ^ 64 + (limb 2 w).toNat * 2 ^ 128 + (limb 3 w).toNat * 2 ^ 192 ∧
    ofLimbs (limb 0 w) (limb 1 w) (limb 2 w) (limb 3 w) = w) ∧
  ∀ t f d o : Word, inRange t f d o = true →
    ∃ e : Word, EncodeGives t f d o e ∧
      limb 0 e = o.extractLsb' 32 64 ∧ limb 1 e = d.extractLsb' 32 64 ∧ limb 2 e = f.extractLsb' 0 64 ∧
      limb 3 e = t.extractLsb' 0 32 ++ f.extractLsb' 64 32

/-- In either byte order a word is 32 bytes and those bytes give the word back (the open parameter of R45, log entry
13). -/
def Obligations.SerialBytesRoundTrip : Prop :=
  ∀ (order : Config.ByteOrder) (w : Word),
    (serialBytes order w).length = 32 ∧ ofSerialBytes order (serialBytes order w) = w

/-- The barrel-shifter layout conforms (R68): a cascade with its selects tied to a constant is the shift by that
constant, and both datapaths built from cascades give what ENCODE and DECODE give (log entry 14). -/
def Obligations.BarrelShifterLayoutConforms : Prop :=
  (∀ (amount : BitVec 8) (x : Word),
    barrelLeft amount x = x <<< amount.toNat ∧ barrelRight amount x = x >>> amount.toNat) ∧
  (∀ t f d o : Word, EncodeGives t f d o (encBarrel t f d o)) ∧
  ∀ w : Word, DecodeGives w (decBarrel w)

/-! ## Corner cases the spec lists -/

/-- The ENCODE corner cases and the worked example the spec derives as R88 and R89. -/
def Obligations.EncodeCornerCases : Prop :=
  EncodeGives 0 0 0 0 0 ∧
  EncodeGives (BitVec.ofNat 256 (2 ^ 32 - 1)) (BitVec.ofNat 256 (2 ^ 96 - 1)) (BitVec.ofNat 256 (2 ^ 96 - 1))
    (BitVec.ofNat 256 (2 ^ 96 - 1)) (BitVec.allOnes 256) ∧
  EncodeGives (BitVec.allOnes 256) (BitVec.allOnes 256) (BitVec.allOnes 256) (BitVec.allOnes 256)
    (BitVec.allOnes 256) ∧
  EncodeGives 0 0 (BitVec.ofNat 256 (2 ^ 32 - 1)) 0 0 ∧
  EncodeGives (BitVec.ofNat 256 (2 ^ 32)) 0 0 0 0 ∧
  EncodeGives 0 (BitVec.ofNat 256 (2 ^ 96)) 0 0 (BitVec.ofNat 256 (2 ^ 224)) ∧
  EncodeGives 0 0 (BitVec.ofNat 256 (2 ^ 96)) 0 (BitVec.ofNat 256 (2 ^ 128)) ∧
  EncodeGives 0 0 0 (BitVec.ofNat 256 (2 ^ 96)) (BitVec.ofNat 256 (2 ^ 64)) ∧
  EncodeGives 1 2 12884901888 17179869184 0x0000000100000000000000000000000200000000000000030000000000000004

/-- The DECODE corner cases and the worked example the spec derives as R107 and R108. -/
def Obligations.DecodeCornerCases : Prop :=
  DecodeGives 0 { timestamp := 0, flowRate := 0, deposit := 0, owedDeposit := 0 } ∧
  DecodeGives (BitVec.allOnes 256)
    { timestamp := BitVec.ofNat 32 (2 ^ 32 - 1), flowRate := BitVec.ofNat 96 (2 ^ 96 - 1),
      deposit := 0xffffffffffffffff00000000, owedDeposit := 0xffffffffffffffff00000000 } ∧
  DecodeGives 1 { timestamp := 0, flowRate := 0, deposit := 0, owedDeposit := BitVec.ofNat 96 (2 ^ 32) } ∧
  DecodeGives (BitVec.ofNat 256 (2 ^ 63))
    { timestamp := 0, flowRate := 0, deposit := 0, owedDeposit := BitVec.ofNat 96 (2 ^ 95) } ∧
  DecodeGives (BitVec.ofNat 256 (2 ^ 64))
    { timestamp := 0, flowRate := 0, deposit := BitVec.ofNat 96 (2 ^ 32), owedDeposit := 0 } ∧
  DecodeGives (BitVec.ofNat 256 (2 ^ 127))
    { timestamp := 0, flowRate := 0, deposit := BitVec.ofNat 96 (2 ^ 95), owedDeposit := 0 } ∧
  DecodeGives (BitVec.ofNat 256 (2 ^ 128)) { timestamp := 0, flowRate := 1, deposit := 0, owedDeposit := 0 } ∧
  DecodeGives (BitVec.ofNat 256 (2 ^ 223))
    { timestamp := 0, flowRate := BitVec.ofNat 96 (2 ^ 95), deposit := 0, owedDeposit := 0 } ∧
  DecodeGives (BitVec.ofNat 256 (2 ^ 224)) { timestamp := 1, flowRate := 0, deposit := 0, owedDeposit := 0 } ∧
  DecodeGives (BitVec.ofNat 256 (2 ^ 255))
    { timestamp := BitVec.ofNat 32 (2 ^ 31), flowRate := 0, deposit := 0, owedDeposit := 0 } ∧
  DecodeGives 0x0000000100000000000000000000000200000000000000030000000000000004
    { timestamp := 1, flowRate := 2, deposit := 12884901888, owedDeposit := 17179869184 }
end

