-- ==== Sys2Proof/Laws/Datapath.lean ====
section
/-! SUPPORT. The datapaths in the forms proofs use: ENCODE as an OR of 256-bit shifts (40_encode.md R82), DECODE as
slices of each port, and both in the parameters of 00_scope.md R6. -/

namespace Sys2Proof.Machine

/-- Reducing to 256 bits commutes with OR and with the shifts (R82), so ENCODE is an OR of 256-bit shifts. -/
theorem encDatapath_eq_or_of_shifts (t f d o : Word) :
    encDatapath t f d o = t <<< 224 ||| f <<< 128 ||| (d >>> 32) <<< 64 ||| o >>> 32 := by
  apply BitVec.eq_of_toNat_eq
  simp only [encDatapath, encUnbounded, BitVec.toNat_ofNat, BitVec.toNat_or, BitVec.toNat_shiftLeft,
    BitVec.toNat_ushiftRight, Nat.or_mod_two_pow]
  rw [Nat.mod_eq_of_lt (a := o.toNat >>> 32)]
  exact Nat.lt_of_le_of_lt (Nat.shiftRight_le _ _) o.isLt

/-- ENCODE in the parameters of the block (00_scope.md R6). -/
theorem encDatapath_eq_of_parameters (t f d o : Word) :
    encDatapath t f d o =
      BitVec.ofNat Config.wordW ((t.toNat <<< Config.tsLsb) ||| (f.toNat <<< Config.frLsb) |||
        ((d.toNat >>> Config.trunc) <<< Config.depLsb) ||| ((o.toNat >>> Config.trunc) <<< Config.owdLsb)) := rfl

@[simp] theorem decDatapath_timestamp (w : Word) : (decDatapath w).timestamp = w.extractLsb' 224 32 := rfl
@[simp] theorem decDatapath_flowRate (w : Word) : (decDatapath w).flowRate = w.extractLsb' 128 96 := rfl
@[simp] theorem decDatapath_deposit (w : Word) : (decDatapath w).deposit = w.extractLsb' 64 64 ++ 0#32 := rfl
@[simp] theorem decDatapath_owedDeposit (w : Word) : (decDatapath w).owedDeposit = w.extractLsb' 0 64 ++ 0#32 := rfl

/-- Four outputs are equal when each is. -/
theorem DecodeOutputs.eq_of_fields {x y : DecodeOutputs} (ht : x.timestamp = y.timestamp)
    (hf : x.flowRate = y.flowRate) (hd : x.deposit = y.deposit) (ho : x.owedDeposit = y.owedDeposit) : x = y := by
  cases x; cases y; simp_all

end Sys2Proof.Machine
end

