-- ==== Sys2Proof/Laws/Decode.lean ====
section
/-! SUPPORT. What decoding a record answers, said once. -/

namespace Sys2Proof

/-- The identifier has no third value (30_encoding.md R70). -/
theorem op_eq_one_of_ne_zero : ∀ {op : BitVec 1}, op ≠ 0#1 → op = 1#1 := by decide

/-- Each record stands for at most one transaction and each transaction has one record. -/
theorem decode_eq_ok_iff (r : Record) (i : Instr) : decode r = .ok i ↔ r = encode i := by
  obtain ⟨op, operands⟩ := r
  constructor
  · intro h
    unfold decode at h
    split at h
    · rename_i hop
      split at h
      · cases h; simp_all [encode]
      · cases h
    · rename_i hop
      split at h
      · cases h
        have := op_eq_one_of_ne_zero hop
        simp_all [encode]
      · cases h
  · rintro h
    cases i <;> simp_all [encode, decode]

end Sys2Proof
end

