-- ==== Sys2Proof/Laws/State.lean ====
section
/-! SUPPORT. What each update of State leaves in each field, by definition. -/

namespace Sys2Proof.Machine

@[simp] theorem State.driveEnc_encTimestamp (t f d o : Drive) (s : State) :
    (s.driveEnc t f d o).encTimestamp = t := rfl
@[simp] theorem State.driveEnc_encFlowRate (t f d o : Drive) (s : State) :
    (s.driveEnc t f d o).encFlowRate = f := rfl
@[simp] theorem State.driveEnc_encDeposit (t f d o : Drive) (s : State) :
    (s.driveEnc t f d o).encDeposit = d := rfl
@[simp] theorem State.driveEnc_encOwedDeposit (t f d o : Drive) (s : State) :
    (s.driveEnc t f d o).encOwedDeposit = o := rfl
@[simp] theorem State.driveEnc_decWord (t f d o : Drive) (s : State) :
    (s.driveEnc t f d o).decWord = s.decWord := rfl
@[simp] theorem State.driveEnc_sampledEncWord (t f d o : Drive) (s : State) :
    (s.driveEnc t f d o).sampledEncWord = s.sampledEncWord := rfl
@[simp] theorem State.driveEnc_sampledDec (t f d o : Drive) (s : State) :
    (s.driveEnc t f d o).sampledDec = s.sampledDec := rfl
@[simp] theorem State.driveEnc_sampling (t f d o : Drive) (s : State) :
    (s.driveEnc t f d o).sampling = s.sampling := rfl
@[simp] theorem State.driveEnc_pending (t f d o : Drive) (s : State) :
    (s.driveEnc t f d o).pending = s.pending := rfl

@[simp] theorem State.driveDec_encTimestamp (w : Drive) (s : State) :
    (s.driveDec w).encTimestamp = s.encTimestamp := rfl
@[simp] theorem State.driveDec_encFlowRate (w : Drive) (s : State) :
    (s.driveDec w).encFlowRate = s.encFlowRate := rfl
@[simp] theorem State.driveDec_encDeposit (w : Drive) (s : State) :
    (s.driveDec w).encDeposit = s.encDeposit := rfl
@[simp] theorem State.driveDec_encOwedDeposit (w : Drive) (s : State) :
    (s.driveDec w).encOwedDeposit = s.encOwedDeposit := rfl
@[simp] theorem State.driveDec_decWord (w : Drive) (s : State) :
    (s.driveDec w).decWord = w := rfl
@[simp] theorem State.driveDec_sampledEncWord (w : Drive) (s : State) :
    (s.driveDec w).sampledEncWord = s.sampledEncWord := rfl
@[simp] theorem State.driveDec_sampledDec (w : Drive) (s : State) :
    (s.driveDec w).sampledDec = s.sampledDec := rfl
@[simp] theorem State.driveDec_sampling (w : Drive) (s : State) :
    (s.driveDec w).sampling = s.sampling := rfl
@[simp] theorem State.driveDec_pending (w : Drive) (s : State) :
    (s.driveDec w).pending = s.pending := rfl

@[simp] theorem State.putEncSample_encTimestamp (w : Word) (s : State) :
    (s.putEncSample w).encTimestamp = s.encTimestamp := rfl
@[simp] theorem State.putEncSample_encFlowRate (w : Word) (s : State) :
    (s.putEncSample w).encFlowRate = s.encFlowRate := rfl
@[simp] theorem State.putEncSample_encDeposit (w : Word) (s : State) :
    (s.putEncSample w).encDeposit = s.encDeposit := rfl
@[simp] theorem State.putEncSample_encOwedDeposit (w : Word) (s : State) :
    (s.putEncSample w).encOwedDeposit = s.encOwedDeposit := rfl
@[simp] theorem State.putEncSample_decWord (w : Word) (s : State) :
    (s.putEncSample w).decWord = s.decWord := rfl
@[simp] theorem State.putEncSample_sampledEncWord (w : Word) (s : State) :
    (s.putEncSample w).sampledEncWord = some w := rfl
@[simp] theorem State.putEncSample_sampledDec (w : Word) (s : State) :
    (s.putEncSample w).sampledDec = s.sampledDec := rfl
@[simp] theorem State.putEncSample_sampling (w : Word) (s : State) :
    (s.putEncSample w).sampling = s.sampling := rfl
@[simp] theorem State.putEncSample_pending (w : Word) (s : State) :
    (s.putEncSample w).pending = s.pending := rfl

@[simp] theorem State.putDecSample_encTimestamp (x : DecodeOutputs) (s : State) :
    (s.putDecSample x).encTimestamp = s.encTimestamp := rfl
@[simp] theorem State.putDecSample_encFlowRate (x : DecodeOutputs) (s : State) :
    (s.putDecSample x).encFlowRate = s.encFlowRate := rfl
@[simp] theorem State.putDecSample_encDeposit (x : DecodeOutputs) (s : State) :
    (s.putDecSample x).encDeposit = s.encDeposit := rfl
@[simp] theorem State.putDecSample_encOwedDeposit (x : DecodeOutputs) (s : State) :
    (s.putDecSample x).encOwedDeposit = s.encOwedDeposit := rfl
@[simp] theorem State.putDecSample_decWord (x : DecodeOutputs) (s : State) :
    (s.putDecSample x).decWord = s.decWord := rfl
@[simp] theorem State.putDecSample_sampledEncWord (x : DecodeOutputs) (s : State) :
    (s.putDecSample x).sampledEncWord = s.sampledEncWord := rfl
@[simp] theorem State.putDecSample_sampledDec (x : DecodeOutputs) (s : State) :
    (s.putDecSample x).sampledDec = some x := rfl
@[simp] theorem State.putDecSample_sampling (x : DecodeOutputs) (s : State) :
    (s.putDecSample x).sampling = s.sampling := rfl
@[simp] theorem State.putDecSample_pending (x : DecodeOutputs) (s : State) :
    (s.putDecSample x).pending = s.pending := rfl

@[simp] theorem State.putPending_encTimestamp (rs : List Record) (s : State) :
    (s.putPending rs).encTimestamp = s.encTimestamp := rfl
@[simp] theorem State.putPending_encFlowRate (rs : List Record) (s : State) :
    (s.putPending rs).encFlowRate = s.encFlowRate := rfl
@[simp] theorem State.putPending_encDeposit (rs : List Record) (s : State) :
    (s.putPending rs).encDeposit = s.encDeposit := rfl
@[simp] theorem State.putPending_encOwedDeposit (rs : List Record) (s : State) :
    (s.putPending rs).encOwedDeposit = s.encOwedDeposit := rfl
@[simp] theorem State.putPending_decWord (rs : List Record) (s : State) :
    (s.putPending rs).decWord = s.decWord := rfl
@[simp] theorem State.putPending_sampledEncWord (rs : List Record) (s : State) :
    (s.putPending rs).sampledEncWord = s.sampledEncWord := rfl
@[simp] theorem State.putPending_sampledDec (rs : List Record) (s : State) :
    (s.putPending rs).sampledDec = s.sampledDec := rfl
@[simp] theorem State.putPending_sampling (rs : List Record) (s : State) :
    (s.putPending rs).sampling = s.sampling := rfl
@[simp] theorem State.putPending_pending (rs : List Record) (s : State) :
    (s.putPending rs).pending = rs := rfl

end Sys2Proof.Machine
end

