-- ==== Sys2Proof/Laws/Operands.lean ====
section
/-! SUPPORT. What each operand form reads, and what the outputs carry when the inputs are constants. -/

namespace Sys2Proof

@[simp] theorem Drive.read_value (v : Word) (wire : Option Word) : (Drive.value v).read wire = some v := rfl
@[simp] theorem Drive.read_wired (wire : Option Word) : Drive.wired.read wire = wire := rfl
@[simp] theorem Drive.read_notTwoValued (wire : Option Word) : Drive.notTwoValued.read wire = none := rfl
@[simp] theorem Drive.isWired_value (v : Word) : (Drive.value v).isWired = false := rfl
@[simp] theorem Drive.isWired_wired : Drive.wired.isWired = true := rfl
@[simp] theorem Drive.isWired_notTwoValued : Drive.notTwoValued.isWired = false := rfl

theorem Drive.isWired_iff (p : Drive) : p.isWired = true ↔ p = .wired := by
  cases p <;> simp

/-- A port read without a wire has a value only where it is a constant. -/
theorem Drive.read_none_eq_some (p : Drive) (v : Word) : p.read none = some v ↔ p = .value v := by
  cases p <;> simp

end Sys2Proof

namespace Sys2Proof.Machine

/-- `enc_word` when its four inputs are constants: it depends on nothing else (10_state.md R31). -/
theorem encWordNow_of_values {s : State} {t f d o : Word} (ht : s.encTimestamp = .value t)
    (hf : s.encFlowRate = .value f) (hd : s.encDeposit = .value d) (ho : s.encOwedDeposit = .value o) :
    s.encWordNow = some (encDatapath t f d o) := by
  simp [State.encWordNow, ht, hf, hd, ho]

/-- The `dec_*` outputs when `dec_word` is a constant: they depend on nothing else (10_state.md R31). -/
theorem decOutputsNow_of_value {s : State} {w : Word} (h : s.decWord = .value w) :
    s.decOutputsNow = some (decDatapath w) := by
  simp [State.decOutputsNow, h]

/-- Driving the ENCODE inputs changes no `dec_*` output but through a wire (10_state.md R31). -/
theorem decOutputsNow_driveEnc {s : State} (h : s.decWord ≠ .wired) (t f d o : Drive) :
    (s.driveEnc t f d o).decOutputsNow = s.decOutputsNow := by
  cases hw : s.decWord <;> simp_all [State.decOutputsNow]

end Sys2Proof.Machine
end

