-- ==== Sys2Proof/Laws/Ops.lean ====
section
/-! SUPPORT. What each shared operation can do, said once: sampling, the two meanings, taking a record, one step. -/

namespace Sys2Proof.Machine

/-- Sampling `enc_word` answers a next state exactly when it is settled and has a value, and then it records that. -/
theorem sampleEnc_next_iff (s u : State) :
    sampleEnc s = .next u ↔ s.sampling = .settled ∧ ∃ w, s.encWordNow = some w ∧ u = s.putEncSample w := by
  cases hs : s.sampling <;> cases hw : s.encWordNow <;> simp [sampleEnc, hs, hw, eq_comm]

/-- Sampling the `dec_*` outputs answers a next state exactly when they are settled and have a value. -/
theorem sampleDec_next_iff (s u : State) :
    sampleDec s = .next u ↔ s.sampling = .settled ∧ ∃ x, s.decOutputsNow = some x ∧ u = s.putDecSample x := by
  cases hs : s.sampling <;> cases hw : s.decOutputsNow <;> simp [sampleDec, hs, hw, eq_comm]

/-- Sampling `enc_word` is refused exactly when it is early or has no value. -/
theorem sampleEnc_refused_iff (s : State) (r : Refusal) :
    sampleEnc s = .refused r ↔
      (s.sampling = .early ∧ r = .sampledBeforeSettled) ∨
        (s.sampling = .settled ∧ s.encWordNow = none ∧ r = s.inputRefusal) := by
  cases hs : s.sampling <;> cases hw : s.encWordNow <;> simp [sampleEnc, hs, hw, eq_comm]

/-- Sampling the `dec_*` outputs is refused exactly when they are early or have no value. -/
theorem sampleDec_refused_iff (s : State) (r : Refusal) :
    sampleDec s = .refused r ↔
      (s.sampling = .early ∧ r = .sampledBeforeSettled) ∨
        (s.sampling = .settled ∧ s.decOutputsNow = none ∧ r = s.inputRefusal) := by
  cases hs : s.sampling <;> cases hw : s.decOutputsNow <;> simp [sampleDec, hs, hw, eq_comm]

/-- All that ENCODE can do when it answers a next state. -/
theorem execEncode_next_iff (t f d o : Drive) (s u : State) :
    execEncode t f d o s = .next u ↔
      s.sampling = .settled ∧ ∃ w, (s.driveEnc t f d o).encWordNow = some w ∧ u = (s.driveEnc t f d o).putEncSample w := by
  simp [execEncode, sampleEnc_next_iff]

/-- All that DECODE can do when it answers a next state. -/
theorem execDecode_next_iff (w : Drive) (s u : State) :
    execDecode w s = .next u ↔
      s.sampling = .settled ∧ ∃ x, (s.driveDec w).decOutputsNow = some x ∧ u = (s.driveDec w).putDecSample x := by
  simp [execDecode, sampleDec_next_iff]

/-- The sample of ENCODE on constants. -/
theorem execEncode_values {s : State} (hs : s.sampling = .settled) (t f d o : Word) :
    execEncode (.value t) (.value f) (.value d) (.value o) s =
      .next ((s.driveEnc (.value t) (.value f) (.value d) (.value o)).putEncSample (encDatapath t f d o)) :=
  (execEncode_next_iff _ _ _ _ _ _).2 ⟨hs, _, encWordNow_of_values rfl rfl rfl rfl, rfl⟩

/-- The sample of DECODE on a constant. -/
theorem execDecode_value {s : State} (hs : s.sampling = .settled) (w : Word) :
    execDecode (.value w) s = .next ((s.driveDec (.value w)).putDecSample (decDatapath w)) :=
  (execDecode_next_iff _ _ _).2 ⟨hs, _, decOutputsNow_of_value rfl, rfl⟩

/-- Taking a record removes the first and nothing else. -/
theorem nextRecord_eq_some_iff (s s' : State) (r : Record) :
    nextRecord s = some (r, s') ↔ ∃ rest, s.pending = r :: rest ∧ s' = s.putPending rest := by
  cases hp : s.pending <;> simp [nextRecord, hp, eq_comm, and_assoc]

/-- All that a step can do when it answers a next state: nothing, with no record waiting, or what its transaction
does to the state without that record. -/
theorem step_next_cases {s u : State} (h : step s = .next u) :
    (s.pending = [] ∧ u = s) ∨
      ∃ r rest i, s.pending = r :: rest ∧ decode r = .ok i ∧ exec i (s.putPending rest) = .next u := by
  cases hp : s.pending with
  | nil => simp [step, nextRecord, hp] at h; simp [h]
  | cons r rest =>
    cases hd : decode r with
    | error e => simp [step, nextRecord, hp, hd] at h
    | ok i => exact .inr ⟨r, rest, i, rfl, hd, by simpa [step, nextRecord, hp, hd] using h⟩

/-- All that a transaction can do when it answers a next state. -/
theorem exec_next_cases {i : Instr} {s u : State} (h : exec i s = .next u) :
    (∃ t f d o w, i = .encode t f d o ∧ s.sampling = .settled ∧ (s.driveEnc t f d o).encWordNow = some w ∧
        u = (s.driveEnc t f d o).putEncSample w) ∨
      ∃ w x, i = .decode w ∧ s.sampling = .settled ∧ (s.driveDec w).decOutputsNow = some x ∧
        u = (s.driveDec w).putDecSample x := by
  cases i with
  | encode t f d o =>
    obtain ⟨hs, w, hw, hu⟩ := (execEncode_next_iff ..).1 h
    exact .inl ⟨t, f, d, o, w, rfl, hs, hw, hu⟩
  | decode w =>
    obtain ⟨hs, x, hx, hu⟩ := (execDecode_next_iff ..).1 h
    exact .inr ⟨w, x, rfl, hs, hx, hu⟩

end Sys2Proof.Machine
end

