-- ==== Sys2Proof/Laws/PerInstr.lean ====
section
/-! SUPPORT. Statements about every instruction as syntax, one lemma per constructor. -/

/-- The record of the instruction decodes to it. -/
def Sys2Proof.Laws.RecordRoundTrip.Statement (i : Sys2Proof.Instr) : Prop :=
  Sys2Proof.decode (Sys2Proof.encode i) = .ok i

theorem Sys2Proof.Laws.RecordRoundTrip.encode (t f d o : Sys2Proof.Drive) :
    Sys2Proof.Laws.RecordRoundTrip.Statement (.encode t f d o) :=
  (Sys2Proof.decode_eq_ok_iff _ _).2 rfl

theorem Sys2Proof.Laws.RecordRoundTrip.decode (w : Sys2Proof.Drive) :
    Sys2Proof.Laws.RecordRoundTrip.Statement (.decode w) :=
  (Sys2Proof.decode_eq_ok_iff _ _).2 rfl
end

