-- ==== Sys2Proof/Tests/Slice0.lean ====
section
/-! SUPPORT. The model's own tests. Expected values are the spec's: the vectors and programs of 95_test_vectors.md, the
records of R70, the word layouts of 30_encoding.md. The witnesses show that the hypotheses of each statement of
Certificates/Slice0/Obligations.lean can be met together. -/

namespace Sys2Proof.Tests.Slice0

open Sys2Proof.Machine

/-! ## WellFormed refuses an ill-formed operand in each place -/

theorem test_wellFormed_accepts_constants_and_wires :
    (wellFormed (.encode (.value 1) .wired (.value 3) .wired) && wellFormed (.decode .wired)) = true := by decide
theorem test_wellFormed_refuses_timestamp :
    wellFormed (.encode .notTwoValued (.value 0) (.value 0) (.value 0)) = false := by decide
theorem test_wellFormed_refuses_flow_rate :
    wellFormed (.encode (.value 0) .notTwoValued (.value 0) (.value 0)) = false := by decide
theorem test_wellFormed_refuses_deposit :
    wellFormed (.encode (.value 0) (.value 0) .notTwoValued (.value 0)) = false := by decide
theorem test_wellFormed_refuses_owed_deposit :
    wellFormed (.encode (.value 0) (.value 0) (.value 0) .notTwoValued) = false := by decide
theorem test_wellFormed_refuses_word : wellFormed (.decode .notTwoValued) = false := by decide

/-! ## Decoding: records written out from R70 and 95_test_vectors.md section 5 -/

/-- P3, T1: `op=0`, `t=0x64`, `f=0x6`, `d=0x1000000000000000100000000`, `o=0x0`, one bit of `op` and then 256 bits each. -/
theorem test_decode_encode_record :
    decodeBits (0 + 2 * (0x64 + 2 ^ 256 * (0x6 + 2 ^ 256 * (0x1000000000000000100000000 + 2 ^ 256 * 0)))) =
      .ok (.encode (.value 0x64) (.value 0x6) (.value 0x1000000000000000100000000) (.value 0)) := by rfl
/-- P5, T2: `op=1`, `w=2^255`: bit 0 of the record is 1 and its bit 256 is the word's bit 255. -/
theorem test_decode_decode_record :
    decodeBits (2 ^ 256 + 1) =
      .ok (.decode (.value 0x8000000000000000000000000000000000000000000000000000000000000000)) := by rfl
/-- A DECODE record with a bit above its 257 carries more than one operand (R71). -/
theorem test_decode_rejects_surplus_bits : decodeBits (2 * 2 ^ 256 + 1) = .error .decodeTakesOneOperand := by rfl
/-- An ENCODE record of three operands is no transaction (R71). -/
theorem test_decode_rejects_three_operands :
    decode { op := 0, operands := [.value 0, .value 0, .value 0] } = .error .encodeTakesFourOperands := by rfl
theorem test_table_word_encode :
    decodeTableWord 8 0 = some (.encode (.value 0) (.value 0) (.value 0) (.value 0)) := by rfl
theorem test_table_word_decode : decodeTableWord 8 1 = some (.decode (.value 0)) := by rfl

/-! ## One step of each operation, from reset -/

/-- What the surrounding system sampled on `enc_word`. -/
def encSample : Host.Outcome State Fault Refusal → Option Word
  | .next s => s.sampledEncWord
  | .fault _ => none
  | .refused _ => none

/-- What the surrounding system sampled on the `dec_*` outputs. -/
def decSample : Host.Outcome State Fault Refusal → Option DecodeOutputs
  | .next s => s.sampledDec
  | .fault _ => none
  | .refused _ => none

/-- Vector E23, through a step. -/
theorem test_encode_document_scenario :
    encSample (step { State.reset with pending := [{ op := 0, operands := [.value 1618876800,
      .value 1234000000000000000000, .value 5678000000000000000000, .value 9012000000000000000000] }] }) =
      some 0x607e198000000042e530adfce008000000000133ce1444aa000001e88a9fac60 := by decide
/-- Program P3: deposit bit 96 lands in flow_rate bit 0 and is ORed with 6. -/
theorem test_encode_overflow_is_ored :
    encSample (exec (.encode (.value 100) (.value 6) (.value 0x1000000000000000100000000) (.value 0)) State.reset) =
      some 0x0000006400000000000000000000000700000000000000010000000000000000 := by decide
/-- Vector X16, through a step. -/
theorem test_decode_document_scenario :
    decSample (step { State.reset with pending := [{ op := 1, operands := [.value
      0x607e198000000042e530adfce008000000000133ce1444aa000001e88a9fac60] }] }) =
      some { timestamp := 0x607e1980, flowRate := 0x42e530adfce0080000, deposit := 0x133ce1444aa00000000,
             owedDeposit := 0x1e88a9fac6000000000 } := by decide
/-- Vector X10: bit 223 is the top bit of flow_rate. -/
theorem test_decode_top_of_flow_rate :
    decSample (exec (.decode (.value 0x0000000080000000000000000000000000000000000000000000000000000000)) State.reset) =
      some { timestamp := 0, flowRate := 0x800000000000000000000000, deposit := 0, owedDeposit := 0 } := by decide

/-! ## Witnesses -/

/-- `dec_word` driven, the ENCODE inputs constant, except where a test sets them. -/
def driven : State :=
  { State.reset with
    encTimestamp := .value 1, encFlowRate := .value 2, encDeposit := .value 3, encOwedDeposit := .value 4,
    decWord := .value 5 }

/-- Hypothesis of every statement whose only one is that outputs are sampled once settled, here and in `EncodeGives` and
`DecodeGives`: EncodeSamplesTruncatedUnion, DecodeSamplesFourFields, EncodeDecodeCommute and the laws of
42_roundtrip.md. -/
theorem witness_settled : State.reset.sampling = .settled ∧ driven.sampling = .settled := by decide

theorem witness_EncodeInRangeIsConcatenation :
    (BitVec.ofNat 256 (2 ^ 32 - 1)).toNat < 2 ^ 32 ∧ (BitVec.ofNat 256 (2 ^ 96 - 1)).toNat < 2 ^ 96 := by decide

theorem witness_inRange_at_its_bounds :
    inRange (BitVec.ofNat 256 (2 ^ 32 - 1)) (BitVec.ofNat 256 (2 ^ 96 - 1)) (BitVec.ofNat 256 (2 ^ 96 - 1))
      (BitVec.ofNat 256 (2 ^ 96 - 1)) = true := by decide

/-- EncodeInRangeEqualWords, both sides of its equivalence: the same word, and another. -/
theorem witness_EncodeInRangeEqualWords :
    inRange 1 2 0x100000000 4 = true ∧ inRange 1 2 0x1ffffffff 5 = true ∧ inRange 1 2 0x200000000 4 = true := by decide

/-- EncodeHasNoSideEffect: a constant form and a wired form answer a next state, with `dec_word` not wired. -/
theorem witness_EncodeHasNoSideEffect :
    (encSample (exec (.encode (.value 0) (.value 0) (.value 0) (.value 0)) driven)).isSome = true ∧
      (encSample (exec (.encode .wired (.value 0) .wired (.value 0)) driven)).isSome = true ∧
      driven.decWord ≠ .wired := by decide

/-- DecodeHasNoSideEffect: a constant form and the wired form answer a next state, with no ENCODE input wired. -/
theorem witness_DecodeHasNoSideEffect :
    (decSample (exec (.decode (.value 0)) driven)).isSome = true ∧
      (decSample (exec (.decode .wired) driven)).isSome = true ∧
      driven.encTimestamp ≠ .wired ∧ driven.encFlowRate ≠ .wired ∧ driven.encDeposit ≠ .wired ∧
      driven.encOwedDeposit ≠ .wired := by decide

/-- EncodeWiredOperandsComplete and WiredDecodeToEncodeGivesWord: the state, and for the operands `.wired`, `.value 7`,
`.value 8`, `.wired` the values they carry while `dec_word` is 5. -/
theorem witness_EncodeWiredOperandsComplete :
    driven.sampling = .settled ∧ driven.decWord = .value 5 ∧
      (0 : Word) = ((5 : Word).extractLsb' 224 32).setWidth 256 ∧
      (0x500000000 : Word) = ((5 : Word).extractLsb' 0 64 ++ 0#32).setWidth 256 ∧
      encSample (exec (.encode .wired (.value 7) (.value 8) .wired) driven) = some (encDatapath 0 7 8 0x500000000) := by
  decide

theorem witness_DecodeWiredOperandCompletes :
    driven.sampling = .settled ∧ driven.encTimestamp = .value 1 ∧ driven.encFlowRate = .value 2 ∧
      driven.encDeposit = .value 3 ∧ driven.encOwedDeposit = .value 4 := by decide

/-- The name an outcome is refused by. -/
def refusal : Host.Outcome State Fault Refusal → Option Refusal
  | .next _ => none
  | .fault _ => none
  | .refused r => some r

/-- EncodeRefusedExactly: each of its cases occurs, the last directly and through a wire. -/
theorem witness_EncodeRefusedExactly :
    refusal (exec (.encode (.value 0) (.value 0) (.value 0) (.value 0)) { driven with sampling := .early }) =
        some .sampledBeforeSettled ∧
      refusal (exec (.encode (.value 0) .wired .notTwoValued (.value 0)) { driven with decWord := .wired }) =
        some .combinationalLoop ∧
      refusal (exec (.encode (.value 0) (.value 0) (.value 0) .notTwoValued) driven) = some .inputNotTwoValued ∧
      refusal (exec (.encode (.value 0) .wired (.value 0) (.value 0)) State.reset) = some .inputNotTwoValued := by
  decide

/-- DecodeRefusedExactly: each of its cases occurs. -/
theorem witness_DecodeRefusedExactly :
    refusal (exec (.decode (.value 0)) { driven with sampling := .early }) = some .sampledBeforeSettled ∧
      refusal (exec (.decode .wired) { driven with encOwedDeposit := .wired }) = some .combinationalLoop ∧
      refusal (exec (.decode .notTwoValued) driven) = some .inputNotTwoValued ∧
      refusal (exec (.decode .wired) State.reset) = some .inputNotTwoValued := by decide

theorem witness_DecodeInjectiveEncodeSurjective : DecodeGives 1 (decDatapath 1) :=
  fun _ hs => ⟨_, execDecode_value hs 1, rfl⟩

/-- ExactRoundTripDomain at the bounds of its clauses. -/
theorem witness_ExactRoundTripDomain :
    (BitVec.ofNat 256 (2 ^ 192 - 1)).toNat < 2 ^ 192 ∧ (BitVec.ofNat 256 (2 ^ 160 - 1)).toNat < 2 ^ 160 ∧
      ¬ (BitVec.ofNat 256 (2 ^ 192)).toNat < 2 ^ 192 := by decide

theorem witness_DecodeOutputsAreCanonicalTuples :
    (0xffffffffffffffff00000000 : Amount).toNat % 2 ^ 32 = 0 ∧ (0x100000000 : Amount).toNat % 2 ^ 32 = 0 ∧
      (0 : Amount).toNat % 2 ^ 32 = 0 := by decide

/-- AgreesWithUnboundedSource: the in-range maximum meets its bound, and so does an overflow that stays in the word. -/
theorem witness_AgreesWithUnboundedSource :
    encUnbounded (2 ^ 32 - 1) (2 ^ 96 - 1) (2 ^ 96 - 1) (2 ^ 96 - 1) < 2 ^ 256 ∧
      encUnbounded 0 (2 ^ 128 - 1) (2 ^ 224 - 1) (2 ^ 256 - 1) < 2 ^ 256 ∧
      ¬ encUnbounded (2 ^ 32) 0 0 0 < 2 ^ 256 := by decide

/-- DecodedLowBitsAlwaysZero: the outputs have a value from a constant and through a wire. -/
theorem witness_DecodedLowBitsAlwaysZero :
    driven.decOutputsNow.isSome = true ∧ ({ driven with decWord := .wired }).decOutputsNow.isSome = true := by decide

/-- DatapathsIndependent: two states that agree on one side only. -/
theorem witness_DatapathsIndependent :
    driven.encTimestamp = ({ driven with decWord := .value 6 }).encTimestamp ∧
      driven.encFlowRate = ({ driven with decWord := .value 6 }).encFlowRate ∧
      driven.encDeposit = ({ driven with decWord := .value 6 }).encDeposit ∧
      driven.encOwedDeposit = ({ driven with decWord := .value 6 }).encOwedDeposit ∧ driven.encTimestamp ≠ .wired ∧
      driven.encFlowRate ≠ .wired ∧ driven.encDeposit ≠ .wired ∧ driven.encOwedDeposit ≠ .wired ∧
      driven.decWord = ({ driven with encDeposit := .value 6 }).decWord ∧ driven.decWord ≠ .wired := by decide

theorem witness_NothingSampledIsReadBack : SameInputs driven { driven with sampledEncWord := some 7, pending := [] } :=
  ⟨rfl, rfl, rfl, rfl, rfl, rfl⟩

theorem witness_EvaluationIsRepeatable : ∃ u, exec (.decode (.value 1)) State.reset = .next u :=
  ⟨_, execDecode_value rfl 1⟩

theorem witness_FirstEvaluationAfterResetIsAsAnyOther :
    Instr.constant (.encode (.value 1) (.value 2) (.value 3) (.value 4)) = true ∧
      Instr.constant (.decode (.value 1)) = true ∧ driven.sampling = .settled := by decide

/-- StepRunsDecodedTransaction: a record that is a transaction, one that is not, and none. -/
theorem witness_StepRunsDecodedTransaction :
    decode { op := 1, operands := [.value 5] } = .ok (.decode (.value 5)) ∧
      decode { op := 1, operands := [] } = .error .decodeTakesOneOperand ∧ State.reset.pending = [] :=
  ⟨rfl, rfl, rfl⟩

theorem witness_FetchedWordRunsNext :
    decodeTableWord 16 1025 = some (.decode (.value 512)) ∧
      decodeTableWord 1 0 = some (.encode (.value 0) (.value 0) (.value 0) (.value 0)) := ⟨rfl, rfl⟩

/-- RecordBitsDecodeAndEncodeAgree: a constant of each operation; the word's top bit is the DECODE record's top bit. -/
theorem witness_RecordBitsDecodeAndEncodeAgree :
    Instr.constant (.encode (.value 0) (.value 0) (.value 0) (.value 1)) = true ∧
      Instr.constant (.decode (.value (BitVec.ofNat 256 (2 ^ 255)))) = true ∧
      encodeBits (.decode (.value (BitVec.ofNat 256 (2 ^ 255)))) = some (2 ^ 256 + 1) := by
  decide

/-- Two waiting transactions on constants. -/
def waiting : State :=
  { State.reset with
    pending := [{ op := 1, operands := [.value 5] },
      { op := 0, operands := [.value 1, .value 2, .value 3, .value 4] }] }

theorem witness_EveryTwoValuedRecordRuns :
    waiting.sampling = .settled ∧
      waiting.pending = { op := 1, operands := [.value 5] } ::
        [{ op := 0, operands := [.value 1, .value 2, .value 3, .value 4] }] := by decide

theorem witness_ConstantTransactionsRunToTheEnd :
    waiting.sampling = .settled ∧ PendingConstant waiting ∧ SamplesMatchInputs waiting := by
  refine ⟨rfl, fun r hr => ?_, ⟨fun _ _ _ _ h => (by cases h), fun _ h => (by cases h)⟩⟩
  rcases List.mem_cons.1 hr with rfl | hr
  · exact ⟨_, rfl, rfl⟩
  · obtain rfl := List.mem_singleton.1 hr
    exact ⟨_, rfl, rfl⟩

theorem witness_StepKeepsSamplesConsistent :
    SamplesMatchInputs waiting ∧ SampleCanonical waiting ∧ ∃ u, step waiting = .next u :=
  ⟨witness_ConstantTransactionsRunToTheEnd.2.2, fun _ h => (by cases h),
    ⟨_, execDecode_value (s := waiting.putPending [_]) rfl 5⟩⟩

end Sys2Proof.Tests.Slice0
end

section
/-! PROOFS. The statements about the ports and what lies behind them (10_state.md). First what the outputs are functions
of, then what agreement at the inputs (`SameInputs`) keeps, then the statements themselves. -/

namespace Sys2Proof

/-- A port that is not wired reads the same whatever the output across from it carries. -/
theorem Drive.read_eq_read_none {p : Drive} (h : p ≠ .wired) (wire : Option Word) : p.read wire = p.read none := by
  cases p with
  | value v => rfl
  | wired => exact absurd rfl h
  | notTwoValued => rfl

end Sys2Proof

namespace Sys2Proof.Machine

/-! ## The transactions run their meanings -/

@[simp] theorem exec_encode (t f d o : Drive) (s : State) : exec (.encode t f d o) s = execEncode t f d o s := rfl

@[simp] theorem exec_decode (w : Drive) (s : State) : exec (.decode w) s = execDecode w s := rfl

/-! ## What the outputs are functions of -/

/-- The `dec_*` outputs carry a value exactly where `dec_word` does, and then it is DECODE of that (41_decode.md R100). -/
theorem decOutputsNow_eq_some_iff (s : State) (x : DecodeOutputs) :
    s.decOutputsNow = some x ↔ ∃ w, s.decWord.read s.encFromPorts = some w ∧ decDatapath w = x := by
  simp [State.decOutputsNow]

/-- Without a wire on its inputs `enc_word` does not read the other datapath. -/
theorem encWordNow_eq_encFromPorts {s : State} (ht : s.encTimestamp ≠ .wired) (hf : s.encFlowRate ≠ .wired)
    (hd : s.encDeposit ≠ .wired) (ho : s.encOwedDeposit ≠ .wired) : s.encWordNow = s.encFromPorts := by
  simp only [State.encWordNow, State.encFromPorts, Drive.read_eq_read_none ht, Drive.read_eq_read_none hf,
    Drive.read_eq_read_none hd, Drive.read_eq_read_none ho]

/-- Without a wire on `dec_word` the `dec_*` outputs do not read the other datapath. -/
theorem decOutputsNow_eq_decFromPort {s : State} (h : s.decWord ≠ .wired) : s.decOutputsNow = s.decFromPort := by
  simp only [State.decOutputsNow, State.decFromPort, Drive.read_eq_read_none h]

theorem encFromPorts_congr {s₁ s₂ : State} (ht : s₁.encTimestamp = s₂.encTimestamp)
    (hf : s₁.encFlowRate = s₂.encFlowRate) (hd : s₁.encDeposit = s₂.encDeposit)
    (ho : s₁.encOwedDeposit = s₂.encOwedDeposit) : s₁.encFromPorts = s₂.encFromPorts := by
  simp only [State.encFromPorts, ht, hf, hd, ho]

theorem decFromPort_congr {s₁ s₂ : State} (h : s₁.decWord = s₂.decWord) : s₁.decFromPort = s₂.decFromPort := by
  simp only [State.decFromPort, h]

/-! ## What agreement at the inputs keeps -/

namespace SameInputs

variable {s₁ s₂ : State}

theorem driveEnc (h : SameInputs s₁ s₂) (t f d o : Drive) :
    SameInputs (s₁.driveEnc t f d o) (s₂.driveEnc t f d o) := by
  obtain ⟨-, -, -, -, hw, hs⟩ := h
  exact ⟨rfl, rfl, rfl, rfl, hw, hs⟩

theorem driveDec (h : SameInputs s₁ s₂) (w : Drive) : SameInputs (s₁.driveDec w) (s₂.driveDec w) := by
  obtain ⟨ht, hf, hd, ho, -, hs⟩ := h
  exact ⟨ht, hf, hd, ho, rfl, hs⟩

/-- A sample is no input. -/
theorem putEncSample (h : SameInputs s₁ s₂) (w₁ w₂ : Word) :
    SameInputs (s₁.putEncSample w₁) (s₂.putEncSample w₂) := h

/-- A sample is no input. -/
theorem putDecSample (h : SameInputs s₁ s₂) (x₁ x₂ : DecodeOutputs) :
    SameInputs (s₁.putDecSample x₁) (s₂.putDecSample x₂) := h

theorem sampling_eq (h : SameInputs s₁ s₂) : s₁.sampling = s₂.sampling := by
  obtain ⟨-, -, -, -, -, hs⟩ := h
  exact hs

theorem encWordNow_eq (h : SameInputs s₁ s₂) : s₁.encWordNow = s₂.encWordNow := by
  obtain ⟨ht, hf, hd, ho, hw, -⟩ := h
  simp only [State.encWordNow, ht, hf, hd, ho, decFromPort_congr hw]

theorem decOutputsNow_eq (h : SameInputs s₁ s₂) : s₁.decOutputsNow = s₂.decOutputsNow := by
  obtain ⟨ht, hf, hd, ho, hw, -⟩ := h
  simp only [State.decOutputsNow, hw, encFromPorts_congr ht hf hd ho]

theorem hasLoop_eq (h : SameInputs s₁ s₂) : s₁.hasLoop = s₂.hasLoop := by
  obtain ⟨ht, hf, hd, ho, hw, -⟩ := h
  simp only [State.hasLoop, ht, hf, hd, ho, hw]

theorem inputRefusal_eq (h : SameInputs s₁ s₂) : s₁.inputRefusal = s₂.inputRefusal := by
  rw [State.inputRefusal, State.inputRefusal, h.hasLoop_eq]

/-- Sampling `enc_word` reads nothing but the inputs and the sampling: both states record the same value, or both are
refused alike. -/
theorem sampleEnc_agrees (h : SameInputs s₁ s₂) :
    (∃ w, sampleEnc s₁ = .next (s₁.putEncSample w) ∧ sampleEnc s₂ = .next (s₂.putEncSample w)) ∨
      ∃ r, sampleEnc s₁ = .refused r ∧ sampleEnc s₂ = .refused r := by
  simp only [sampleEnc_next_iff, sampleEnc_refused_iff, ← h.sampling_eq, ← h.encWordNow_eq, ← h.inputRefusal_eq]
  cases s₁.sampling with
  | early => exact .inr ⟨_, .inl ⟨rfl, rfl⟩, .inl ⟨rfl, rfl⟩⟩
  | settled =>
    cases s₁.encWordNow with
    | none => exact .inr ⟨_, .inr ⟨rfl, rfl, rfl⟩, .inr ⟨rfl, rfl, rfl⟩⟩
    | some w => exact .inl ⟨w, ⟨rfl, w, rfl, rfl⟩, rfl, w, rfl, rfl⟩

/-- Sampling the `dec_*` outputs reads nothing but the inputs and the sampling: both states record the same values, or
both are refused alike. -/
theorem sampleDec_agrees (h : SameInputs s₁ s₂) :
    (∃ x, sampleDec s₁ = .next (s₁.putDecSample x) ∧ sampleDec s₂ = .next (s₂.putDecSample x)) ∨
      ∃ r, sampleDec s₁ = .refused r ∧ sampleDec s₂ = .refused r := by
  simp only [sampleDec_next_iff, sampleDec_refused_iff, ← h.sampling_eq, ← h.decOutputsNow_eq, ← h.inputRefusal_eq]
  cases s₁.sampling with
  | early => exact .inr ⟨_, .inl ⟨rfl, rfl⟩, .inl ⟨rfl, rfl⟩⟩
  | settled =>
    cases s₁.decOutputsNow with
    | none => exact .inr ⟨_, .inr ⟨rfl, rfl, rfl⟩, .inr ⟨rfl, rfl, rfl⟩⟩
    | some x => exact .inl ⟨x, ⟨rfl, x, rfl, rfl⟩, rfl, x, rfl, rfl⟩

end SameInputs

/-! ## What the two transactions leave of each other -/

/-- An ENCODE's updates and a DECODE's are of different fields. -/
theorem encode_decode_updates_comm (t f d o w : Drive) (e : Word) (x : DecodeOutputs) (s : State) :
    ((((s.driveEnc t f d o).putEncSample e).driveDec w).putDecSample x) =
      ((((s.driveDec w).putDecSample x).driveEnc t f d o).putEncSample e) := rfl

/-! ## The statements -/

/-- Settles O26: the outputs are DECODE of a word, and DECODE puts a 64-bit field above 32 zeros. -/
theorem decodedLowBitsAlwaysZero : Obligations.DecodedLowBitsAlwaysZero := by
  intro s x hx
  obtain ⟨v, hv, rfl⟩ := (decOutputsNow_eq_some_iff s x).1 hx
  refine ⟨BitVec.extractLsb'_append_eq_right, BitVec.extractLsb'_append_eq_right, fun w hw => ?_⟩
  obtain rfl : w = v := by simpa [hw] using hv
  exact ⟨BitVec.extractLsb'_append_eq_left, BitVec.extractLsb'_append_eq_left⟩

/-- Settles O27: with no wire each output reads the ports of its own datapath only. -/
theorem datapathsIndependent : Obligations.DatapathsIndependent := by
  constructor
  · intro s₁ s₂ ht hf hd ho nt nf nd no
    calc s₁.encWordNow = s₁.encFromPorts := encWordNow_eq_encFromPorts nt nf nd no
      _ = s₂.encFromPorts := encFromPorts_congr ht hf hd ho
      _ = s₂.encWordNow := (encWordNow_eq_encFromPorts (ht ▸ nt) (hf ▸ nf) (hd ▸ nd) (ho ▸ no)).symm
  · intro s₁ s₂ hw nw
    calc s₁.decOutputsNow = s₁.decFromPort := decOutputsNow_eq_decFromPort nw
      _ = s₂.decFromPort := decFromPort_congr hw
      _ = s₂.decOutputsNow := (decOutputsNow_eq_decFromPort (hw ▸ nw)).symm

/-- Settles O29: driving keeps the inputs equal, and sampling reads nothing but them. -/
theorem nothingSampledIsReadBack : Obligations.NothingSampledIsReadBack := by
  intro i s₁ s₂ h
  cases i with
  | encode t f d o =>
    simp only [exec_encode, execEncode]
    have hd := h.driveEnc t f d o
    refine hd.sampleEnc_agrees.imp_left fun ⟨w, h₁, h₂⟩ => ?_
    have hu := hd.putEncSample w w
    exact ⟨_, _, h₁, h₂, hu, hu.encWordNow_eq, hu.decOutputsNow_eq, nofun, fun _ _ _ _ _ => rfl⟩
  | decode w =>
    simp only [exec_decode, execDecode]
    have hd := h.driveDec w
    refine hd.sampleDec_agrees.imp_left fun ⟨x, h₁, h₂⟩ => ?_
    have hu := hd.putDecSample x x
    exact ⟨_, _, h₁, h₂, hu, hu.encWordNow_eq, hu.decOutputsNow_eq, fun _ _ => rfl, nofun⟩

/-- Settles O28: each transaction completes from the state the other leaves, and their updates commute. -/
theorem encodeDecodeCommute : Obligations.EncodeDecodeCommute := by
  intro t f d o w s hs
  simp only [exec_encode, exec_decode]
  refine ⟨_, _, _, execEncode_values hs t f d o, execDecode_value ?_ w, execDecode_value hs w, ?_, rfl, rfl⟩
  · simpa using hs
  · rw [encode_decode_updates_comm]
    exact execEncode_values (by simpa using hs) t f d o

end Sys2Proof.Machine
end

section
/-! PROOFS. The statements of 20_memory.md: what samples keep to (section 3), and
the limbs of a packed word (section 2). -/

namespace Sys2Proof.Machine

/-! ## A transaction run again in the state it left -/

/-- What a transaction left at the block's inputs is what it drives there, so that running it again reads the same. -/
theorem execEncode_again {t f d o : Drive} {s u : State} (h : execEncode t f d o s = .next u) :
    execEncode t f d o u = .next u := by
  obtain ⟨hs, e, he, rfl⟩ := (execEncode_next_iff ..).1 h
  exact (execEncode_next_iff ..).2 ⟨hs, e, he, rfl⟩

/-- As for ENCODE: `dec_word` is driven as it already is. -/
theorem execDecode_again {w : Drive} {s u : State} (h : execDecode w s = .next u) : execDecode w u = .next u := by
  obtain ⟨hs, x, hx, rfl⟩ := (execDecode_next_iff ..).1 h
  exact (execDecode_next_iff ..).2 ⟨hs, x, hx, rfl⟩

/-- Settles O30: by operation, driving and sampling again change nothing. -/
theorem evaluationIsRepeatable : Obligations.EvaluationIsRepeatable := by
  intro i s u h
  cases i with
  | encode t f d o => exact execEncode_again h
  | decode w => exact execDecode_again h

/-! ## What the samples keep to -/

namespace SamplesMatchInputs

variable {s : State}

/-- What waits is neither an input nor a sample. -/
theorem putPending (h : SamplesMatchInputs s) (rs : List Record) : SamplesMatchInputs (s.putPending rs) := h

/-- After an ENCODE its sample is what `enc_word` carries; the DECODE half is untouched. -/
theorem encode (h : SamplesMatchInputs s) {t f d o : Drive} {e : Word}
    (he : (s.driveEnc t f d o).encWordNow = some e) :
    SamplesMatchInputs ((s.driveEnc t f d o).putEncSample e) := by
  obtain ⟨-, hdec⟩ := h
  exact ⟨fun t' f' d' o' ht hf hd ho => he.symm.trans (encWordNow_of_values ht hf hd ho), hdec⟩

/-- After a DECODE its sample is what the `dec_*` outputs carry; the ENCODE half is untouched. -/
theorem decode (h : SamplesMatchInputs s) {w : Drive} {x : DecodeOutputs}
    (hx : (s.driveDec w).decOutputsNow = some x) :
    SamplesMatchInputs ((s.driveDec w).putDecSample x) := by
  obtain ⟨henc, -⟩ := h
  exact ⟨henc, fun w' hw => hx.symm.trans (decOutputsNow_of_value hw)⟩

end SamplesMatchInputs

/-- What the `dec_*` outputs carry, a constant or through a wire, is canonical (10_state.md R28). -/
theorem canonical_of_decOutputsNow {s : State} {x : DecodeOutputs} (h : s.decOutputsNow = some x) :
    x.canonical = true := by
  obtain ⟨hd, ho, -⟩ := decodedLowBitsAlwaysZero s x h
  simp [DecodeOutputs.canonical, hd, ho]

namespace SampleCanonical

variable {s : State}

/-- What waits is no sample. -/
theorem putPending (h : SampleCanonical s) (rs : List Record) : SampleCanonical (s.putPending rs) := h

/-- An ENCODE takes no DECODE sample. -/
theorem encode (h : SampleCanonical s) (t f d o : Drive) (e : Word) :
    SampleCanonical ((s.driveEnc t f d o).putEncSample e) := h

/-- A DECODE replaces the sample, whatever it was, by what the outputs carry. -/
theorem decode {w : Drive} {x : DecodeOutputs} (hx : (s.driveDec w).decOutputsNow = some x) :
    SampleCanonical ((s.driveDec w).putDecSample x) := by
  rintro _ ⟨⟩
  exact canonical_of_decOutputsNow hx

end SampleCanonical

/-- Every transaction keeps both invariants, in every operand form. -/
theorem exec_keeps_samples {i : Instr} {s u : State} (hm : SamplesMatchInputs s) (hc : SampleCanonical s)
    (h : exec i s = .next u) : SamplesMatchInputs u ∧ SampleCanonical u := by
  obtain ⟨t, f, d, o, e, -, -, he, rfl⟩ | ⟨w, x, -, -, hx, rfl⟩ := exec_next_cases h
  · exact ⟨hm.encode he, hc.encode t f d o e⟩
  · exact ⟨hm.decode hx, .decode hx⟩

/-- Settles O39: a step changes nothing, or takes a record, which no invariant speaks of, and runs its transaction. -/
theorem stepKeepsSamplesConsistent : Obligations.StepKeepsSamplesConsistent := by
  rintro s u ⟨hm, hc⟩ h
  obtain ⟨-, rfl⟩ | ⟨_, rest, _, -, -, hexec⟩ := step_next_cases h
  · exact ⟨hm, hc⟩
  · exact exec_keeps_samples (hm.putPending rest) (hc.putPending rest) hexec

/-! ## The limbs of any word -/

theorem limb_toNat (k : Fin 4) (w : Word) : (limb k w).toNat = w.toNat / 2 ^ (64 * k.val) % 2 ^ 64 := by
  rw [limb, BitVec.extractLsb'_toNat, Nat.shiftRight_eq_div_pow]

/-- The limbs are the digits of the word in base `2^64` (20_memory.md R44). -/
theorem toNat_eq_sum_limbs (w : Word) :
    w.toNat =
      (limb 0 w).toNat + (limb 1 w).toNat * 2 ^ 64 + (limb 2 w).toNat * 2 ^ 128 + (limb 3 w).toNat * 2 ^ 192 := by
  have hw : w.toNat < 2 ^ 256 := w.isLt
  simp only [limb_toNat, Fin.coe_ofNat_eq_mod, Nat.reduceMod, Nat.reduceMul]
  omega

/-- Adjacent slices join to one, and the whole slice is the word. -/
theorem ofLimbs_limbs (w : Word) : ofLimbs (limb 0 w) (limb 1 w) (limb 2 w) (limb 3 w) = w := by
  calc ofLimbs (limb 0 w) (limb 1 w) (limb 2 w) (limb 3 w)
      = w.extractLsb' 192 64 ++ w.extractLsb' 128 64 ++ w.extractLsb' 64 64 ++ w.extractLsb' 0 64 := rfl
    _ = w.extractLsb' 0 256 := by
      rw [BitVec.extractLsb'_append_extractLsb'_eq_extractLsb' (show 192 = 128 + 64 from rfl),
        BitVec.extractLsb'_append_extractLsb'_eq_extractLsb' (show 128 = 64 + 64 from rfl),
        BitVec.extractLsb'_append_extractLsb'_eq_extractLsb' (show 64 = 0 + 64 from rfl)]
    _ = w := BitVec.extractLsb'_eq_self

/-- Limb 3 holds the timestamp field and the upper 32 bits of the flow_rate field (20_memory.md R44). -/
theorem limb_three_eq_append (w : Word) : limb 3 w = w.extractLsb' 224 32 ++ w.extractLsb' 192 32 :=
  (BitVec.extractLsb'_append_extractLsb'_eq_extractLsb' (show 224 = 192 + 32 from rfl)).symm

/-! ## Slices of shifted words -/

/-- A slice that lies above the zeros a left shift puts in. -/
theorem extractLsb'_shiftLeft_of_le {n k start len : Nat} (v : BitVec n) (hk : k ≤ start) (hn : start + len ≤ n) :
    (v <<< k).extractLsb' start len = v.extractLsb' (start - k) len := by
  ext i hi
  have hlow : ¬ start + i < k := by omega
  have hhigh : start + i < n := by omega
  have hin : start - k + i < n := by omega
  simp [hlow, hhigh, Nat.sub_add_comm hk, BitVec.getLsbD_eq_getElem hin]

/-- A slice of the zeros a left shift puts in. -/
theorem extractLsb'_shiftLeft_of_add_le {n k start len : Nat} (v : BitVec n) (hk : start + len ≤ k) :
    (v <<< k).extractLsb' start len = 0#len := by
  ext i hi
  have hlow : start + i < k := by omega
  simp [hlow]

theorem extractLsb'_ushiftRight {n : Nat} (v : BitVec n) (k start len : Nat) :
    (v >>> k).extractLsb' start len = v.extractLsb' (k + start) len := by
  ext i hi
  simp [Nat.add_assoc]

/-- A slice above every set bit is 0. -/
theorem extractLsb'_eq_zero_of_toNat_lt {n k start : Nat} {v : BitVec n} (hv : v.toNat < 2 ^ k) (hk : k ≤ start)
    (len : Nat) : v.extractLsb' start len = 0#len := by
  apply BitVec.eq_of_toNat_eq
  have hlt : v.toNat < 2 ^ start := hv.trans_le (Nat.pow_le_pow_right Nat.two_pos hk)
  simp [Nat.shiftRight_eq_zero _ _ hlt]

/-! ## The fields of an encoded word: the table of 30_encoding.md R66 -/

theorem encodeGives_encDatapath (t f d o : Word) : EncodeGives t f d o (encDatapath t f d o) :=
  fun _ hs => ⟨_, execEncode_values hs t f d o, rfl⟩

section
variable (t f d o : Word)

/-- A slice of an encoded word is the OR of that slice of the four terms (40_encode.md R82). -/
theorem extractLsb'_encDatapath (start len : Nat) :
    (encDatapath t f d o).extractLsb' start len =
      (t <<< 224).extractLsb' start len ||| (f <<< 128).extractLsb' start len |||
        ((d >>> 32) <<< 64).extractLsb' start len ||| (o >>> 32).extractLsb' start len := by
  simp only [encDatapath_eq_or_of_shifts, BitVec.extractLsb'_or]

/-- The owed_deposit field takes nothing but `o`. -/
theorem encDatapath_owedDeposit_field : (encDatapath t f d o).extractLsb' 0 64 = o.extractLsb' 32 64 := by
  simp [extractLsb'_encDatapath, extractLsb'_shiftLeft_of_add_le, extractLsb'_ushiftRight]

/-- The deposit field takes `d`, and `o` where that overflows. -/
theorem encDatapath_deposit_field :
    (encDatapath t f d o).extractLsb' 64 64 = d.extractLsb' 32 64 ||| o.extractLsb' 96 64 := by
  simp [extractLsb'_encDatapath, extractLsb'_shiftLeft_of_add_le, extractLsb'_shiftLeft_of_le,
    extractLsb'_ushiftRight]

/-- Any slice of the flow_rate field takes `f`, and `d` and `o` where those overflow. -/
theorem encDatapath_flowRate_field {start len : Nat} (h : start + len ≤ 96) :
    (encDatapath t f d o).extractLsb' (128 + start) len =
      f.extractLsb' start len ||| d.extractLsb' (96 + start) len ||| o.extractLsb' (160 + start) len := by
  have hd : 32 + (128 + start - 64) = 96 + start := by omega
  have ho : 32 + (128 + start) = 160 + start := by omega
  rw [extractLsb'_encDatapath, extractLsb'_shiftLeft_of_add_le t (by omega),
    extractLsb'_shiftLeft_of_le f (by omega) (by omega), extractLsb'_shiftLeft_of_le _ (by omega) (by omega),
    extractLsb'_ushiftRight, extractLsb'_ushiftRight, hd, ho, Nat.add_sub_cancel_left, BitVec.zero_or]

/-- The timestamp field takes `t`, and `f` and `d` where those overflow; no bit of `o` reaches it. -/
theorem encDatapath_timestamp_field :
    (encDatapath t f d o).extractLsb' 224 32 =
      t.extractLsb' 0 32 ||| f.extractLsb' 96 32 ||| d.extractLsb' 192 32 := by
  have ho : o.extractLsb' 256 32 = 0#32 := extractLsb'_eq_zero_of_toNat_lt o.isLt le_rfl 32
  simp [extractLsb'_encDatapath, extractLsb'_shiftLeft_of_le, extractLsb'_ushiftRight, ho]

end

/-! ## The fields in range: nothing overflows into a neighbour (40_encode.md R85) -/

theorem inRange_iff (t f d o : Word) :
    inRange t f d o = true ↔ t.toNat < 2 ^ 32 ∧ f.toNat < 2 ^ 96 ∧ d.toNat < 2 ^ 96 ∧ o.toNat < 2 ^ 96 := by
  simp [inRange, and_assoc]

section
variable {t f d o : Word} (h : inRange t f d o = true)
include h

theorem encDatapath_deposit_field_of_inRange :
    (encDatapath t f d o).extractLsb' 64 64 = d.extractLsb' 32 64 := by
  obtain ⟨-, -, -, ho⟩ := (inRange_iff t f d o).1 h
  rw [encDatapath_deposit_field, extractLsb'_eq_zero_of_toNat_lt ho le_rfl, BitVec.or_zero]

theorem encDatapath_flowRate_field_of_inRange {start len : Nat} (hs : start + len ≤ 96) :
    (encDatapath t f d o).extractLsb' (128 + start) len = f.extractLsb' start len := by
  obtain ⟨-, -, hd, ho⟩ := (inRange_iff t f d o).1 h
  rw [encDatapath_flowRate_field t f d o hs, extractLsb'_eq_zero_of_toNat_lt hd (by omega),
    extractLsb'_eq_zero_of_toNat_lt ho (by omega), BitVec.or_zero, BitVec.or_zero]

theorem encDatapath_timestamp_field_of_inRange :
    (encDatapath t f d o).extractLsb' 224 32 = t.extractLsb' 0 32 := by
  obtain ⟨-, hf, hd, -⟩ := (inRange_iff t f d o).1 h
  rw [encDatapath_timestamp_field, extractLsb'_eq_zero_of_toNat_lt hf le_rfl,
    extractLsb'_eq_zero_of_toNat_lt hd (by decide), BitVec.or_zero, BitVec.or_zero]

end

/-- Settles O41: the limbs are the base `2^64` digits; in range limbs 0 and 1 are the two deposit fields, limb 2 the
lower part of the flow_rate field and limb 3 its rest below the timestamp field. -/
theorem limbsHoldTheFields : Obligations.LimbsHoldTheFields := by
  constructor
  · exact fun w => ⟨toNat_eq_sum_limbs w, ofLimbs_limbs w⟩
  · intro t f d o h
    refine ⟨_, encodeGives_encDatapath t f d o, encDatapath_owedDeposit_field t f d o,
      encDatapath_deposit_field_of_inRange h, encDatapath_flowRate_field_of_inRange (start := 0) h (by decide), ?_⟩
    rw [limb_three_eq_append, encDatapath_timestamp_field_of_inRange h,
      encDatapath_flowRate_field_of_inRange (start := 64) h (by decide)]

end Sys2Proof.Machine
end

section
/-! PROOFS. The statements of 30_encoding.md: records and what a step does with them (sections 4 and 5), the two
layouts bit by bit (section 3), the fields as the document computes them (section 2), and the barrel-shifter
realisation of R68. -/

namespace Sys2Proof

/-! ## Records -/

/-- Settles O35: the records of transactions are those of R70, and each has the shape of its `op`. -/
theorem recordShapeIsFixed : Obligations.RecordShapeIsFixed := by
  intro r
  simp only [decode_eq_ok_iff]
  constructor
  · rintro ⟨i, rfl⟩
    cases i with
    | encode t f d o => exact .inl ⟨rfl, rfl⟩
    | decode w => exact .inr ⟨rfl, rfl⟩
  · obtain ⟨op, operands⟩ := r
    rintro (⟨rfl, h⟩ | ⟨rfl, h⟩)
    · obtain ⟨t, f, d, o, rfl⟩ := List.length_eq_four.1 h
      exact ⟨.encode t f d o, rfl⟩
    · obtain ⟨w, rfl⟩ := List.length_eq_one_iff.1 h
      exact ⟨.decode w, rfl⟩

end Sys2Proof

namespace Sys2Proof.Machine

/-! ## One step, by what waits -/

section
variable {s : State} {r : Record} {rest : List Record}

theorem step_of_pending_nil (hp : s.pending = []) : step s = .next s := by
  simp [step, nextRecord, hp]

theorem step_of_decode_error {e : DecodeError} (hp : s.pending = r :: rest) (hd : decode r = .error e) :
    step s = .refused .notATransaction := by
  simp [step, nextRecord, hp, hd]

theorem step_of_decode_ok {i : Instr} (hp : s.pending = r :: rest) (hd : decode r = .ok i) :
    step s = exec i (s.putPending rest) := by
  simp [step, nextRecord, hp, hd]

/-- A waiting record of a transaction runs it. -/
theorem step_of_pending_encode {i : Instr} (hp : s.pending = encode i :: rest) :
    step s = exec i (s.putPending rest) :=
  step_of_decode_ok hp ((decode_eq_ok_iff _ _).2 rfl)

end

/-- Settles O32: by what waits and by what the first record decodes to. -/
theorem stepRunsDecodedTransaction : Obligations.StepRunsDecodedTransaction :=
  ⟨fun _ _ _ _ => step_of_decode_ok, fun _ _ _ _ => step_of_decode_error, fun _ => step_of_pending_nil⟩

/-- Settles O37: the step runs the transaction, which on constants completes and samples what its inputs give. -/
theorem everyTwoValuedRecordRuns : Obligations.EveryTwoValuedRecordRuns := by
  constructor
  · intro w rest s hs hp
    have hstep := (step_of_pending_encode (i := .decode (.value w)) hp).trans
      (execDecode_value (s := s.putPending rest) hs w)
    exact ⟨_, hstep, rfl, (decOutputsNow_of_value rfl).symm, rfl⟩
  · intro t f d o rest s hs hp
    have hstep := (step_of_pending_encode (i := .encode (.value t) (.value f) (.value d) (.value o)) hp).trans
      (execEncode_values (s := s.putPending rest) hs t f d o)
    exact ⟨_, hstep, rfl, rfl, rfl, rfl, (encWordNow_of_values rfl rfl rfl rfl).symm, rfl⟩

/-! ## Slices, shifts and masks of any bit vector -/

theorem toNat_extractLsb'_eq_and {n : Nat} (v : BitVec n) (start len : Nat) :
    (v.extractLsb' start len).toNat = (v.toNat >>> start) &&& (2 ^ len - 1) := by
  rw [BitVec.extractLsb'_toNat, Nat.and_two_pow_sub_one_eq_mod]

/-- A slice with no set bit above it needs no mask. -/
theorem toNat_extractLsb'_of_toNat_lt {n start len : Nat} {v : BitVec n} (hv : v.toNat < 2 ^ start * 2 ^ len) :
    (v.extractLsb' start len).toNat = v.toNat >>> start := by
  rw [BitVec.extractLsb'_toNat, Nat.shiftRight_eq_div_pow, Nat.mod_eq_of_lt (Nat.div_lt_of_lt_mul hv)]

theorem toNat_append_zero {m : Nat} (v : BitVec m) (k : Nat) : (v ++ 0#k).toNat = v.toNat <<< k := by
  simp [BitVec.toNat_append]

theorem getLsbD_append_zero {m : Nat} (v : BitVec m) (k j : Nat) :
    (v ++ 0#k).getLsbD j = if j < k then false else v.getLsbD (j - k) := by
  simp [BitVec.getLsbD_append]

theorem getLsbD_shiftLeft_of_lt {n k i : Nat} (v : BitVec n) (hi : i < n) :
    (v <<< k).getLsbD i = if k ≤ i then v.getLsbD (i - k) else false := by
  rw [BitVec.getLsbD_shiftLeft]
  split_ifs with hk
  · simp [hi, Nat.not_lt.2 hk]
  · simp [Nat.lt_of_not_le hk]

/-- A mask of ones keeps the slice of as many low bits. -/
theorem and_mask_eq_setWidth_extractLsb' {n : Nat} (v : BitVec n) (k : Nat) :
    v &&& BitVec.ofNat n (2 ^ k - 1) = (v.extractLsb' 0 k).setWidth n := by
  apply BitVec.eq_of_getLsbD_eq
  intro i hi
  rw [BitVec.getLsbD_and, BitVec.getLsbD_ofNat, Nat.testBit_two_pow_sub_one, BitVec.getLsbD_setWidth,
    BitVec.getLsbD_extractLsb', decide_eq_true hi, Nat.zero_add, Bool.true_and, Bool.true_and, Bool.and_comm]

/-- A field shifted up inside a wider word stands above zeros. -/
theorem setWidth_shiftLeft_setWidth {m k n : Nat} (v : BitVec m) (h : m + k ≤ n) :
    (v.setWidth n <<< k).setWidth (m + k) = v ++ 0#k := by
  apply BitVec.eq_of_getLsbD_eq
  intro i hi
  have hin : i < n := by omega
  rw [getLsbD_append_zero, BitVec.getLsbD_setWidth, getLsbD_shiftLeft_of_lt _ hin, BitVec.getLsbD_setWidth]
  have hik : i - k < n := by omega
  by_cases hk : i < k
  · simp [hk]
  · simp [hi, hk, hik, Nat.le_of_not_lt hk]

/-! ## The fields as the document computes them (R65) -/

/-- Settles O2: DECODE samples the slices, and each slice is the document's shift and mask. -/
theorem decodeSamplesFourFields : Obligations.DecodeSamplesFourFields := by
  intro w s hs
  refine ⟨decDatapath w, execDecode_value hs w, toNat_extractLsb'_of_toNat_lt w.isLt,
    toNat_extractLsb'_eq_and w 128 96, ?_, ?_, rfl, rfl, rfl, rfl⟩
  · rw [decDatapath_deposit, toNat_append_zero, toNat_extractLsb'_eq_and]
  · rw [decDatapath_owedDeposit, toNat_append_zero, toNat_extractLsb'_eq_and, Nat.shiftRight_zero]

/-! ## The bit equations (R66, R67) -/

theorem decodeGives_decDatapath (w : Word) : DecodeGives w (decDatapath w) :=
  fun _ hs => ⟨_, execDecode_value hs w, rfl⟩

/-- Dropping the low 32 bits of a deposit before placing it at bit 64 moves each of its bits up by 32. -/
theorem getLsbD_deposit_term (d : Word) {i : Nat} (hi : i < 256) :
    ((d >>> 32) <<< 64).getLsbD i = if 64 ≤ i then d.getLsbD (i - 32) else false := by
  rw [getLsbD_shiftLeft_of_lt _ hi]
  refine ite_congr rfl (fun h => ?_) fun _ => rfl
  have hi' : 32 + (i - 64) = i - 32 := by omega
  rw [BitVec.getLsbD_ushiftRight, hi']

/-- A logical right shift puts zeros in above bit 223. -/
theorem getLsbD_owedDeposit_term (o : Word) (i : Nat) :
    (o >>> 32).getLsbD i = if i < 224 then o.getLsbD (i + 32) else false := by
  rw [BitVec.getLsbD_ushiftRight, Nat.add_comm]
  split
  · rfl
  · exact BitVec.getLsbD_of_ge o (i + 32) (by omega)

/-- R66: each bit of `enc_word` is an OR of at most four input bits. -/
theorem getLsbD_encDatapath (t f d o : Word) {i : Nat} (hi : i < 256) :
    (encDatapath t f d o).getLsbD i =
      ((if 224 ≤ i then t.getLsbD (i - 224) else false) ||
        (if 128 ≤ i then f.getLsbD (i - 128) else false) ||
        (if 64 ≤ i then d.getLsbD (i - 32) else false) ||
        (if i < 224 then o.getLsbD (i + 32) else false)) := by
  rw [encDatapath_eq_or_of_shifts, BitVec.getLsbD_or, BitVec.getLsbD_or, BitVec.getLsbD_or,
    getLsbD_shiftLeft_of_lt t hi, getLsbD_shiftLeft_of_lt f hi, getLsbD_deposit_term d hi,
    getLsbD_owedDeposit_term]

/-- Settles O3: bit by bit from the four shifted terms, and slice by slice from the fields of an encoded word. -/
theorem encodeBitEquation : Obligations.EncodeBitEquation := by
  intro t f d o
  exact ⟨_, encodeGives_encDatapath t f d o, fun i => getLsbD_encDatapath t f d o,
    encDatapath_owedDeposit_field t f d o, encDatapath_deposit_field t f d o,
    encDatapath_flowRate_field t f d o (start := 0) le_rfl, encDatapath_timestamp_field t f d o⟩

/-- A stored 64-bit field above 32 zeros, bit by bit. -/
theorem getLsbD_extractLsb'_append_zero (w : Word) (start : Nat) {j : Nat} (hj : j < 96) :
    (w.extractLsb' start 64 ++ 0#32).getLsbD j = if j < 32 then false else w.getLsbD (start + (j - 32)) := by
  have hin : j - 32 < 64 := by omega
  rw [getLsbD_append_zero, BitVec.getLsbD_extractLsb', decide_eq_true hin, Bool.true_and]

/-- Settles O4: each output is a slice of the word, two of them above 32 zeros. -/
theorem decodeBitEquation : Obligations.DecodeBitEquation := by
  intro w
  refine ⟨_, decodeGives_decDatapath w, ?_, ?_, ?_, ?_⟩
  · intro j hj
    simp [hj]
  · intro j hj
    simp [hj]
  · intro j hj
    rw [decDatapath_deposit, getLsbD_extractLsb'_append_zero w 64 hj]
    split
    · rfl
    · congr 1; omega
  · intro j hj
    rw [decDatapath_owedDeposit, getLsbD_extractLsb'_append_zero w 0 hj, Nat.zero_add]

/-- Settles O18: DECODE slices the encoded word into the fields of R66's table. -/
theorem decodeAfterEncodeInGeneral : Obligations.DecodeAfterEncodeInGeneral := by
  intro t f d o
  refine ⟨_, encodeGives_encDatapath t f d o, ?_⟩
  rw [← encDatapath_timestamp_field t f d o, ← encDatapath_flowRate_field t f d o (start := 0) le_rfl,
    ← encDatapath_deposit_field, ← encDatapath_owedDeposit_field t f d o]
  exact decodeGives_decDatapath _

/-! ## Barrel shifters (R68) -/

/-- What the stages `ks` of a cascade shift by together: each one whose select is on shifts by its power of two. -/
def stagesShift (amount : BitVec 8) (ks : List Nat) : Nat :=
  (ks.map fun k => (amount.getLsbD k).toNat * 2 ^ k).sum

theorem barrelStageLeft_eq_shiftLeft (amount : BitVec 8) (x : Word) (k : Nat) :
    barrelStageLeft amount x k = x <<< ((amount.getLsbD k).toNat * 2 ^ k) := by
  cases h : amount.getLsbD k <;> simp [barrelStageLeft, h]

theorem barrelStageRight_eq_ushiftRight (amount : BitVec 8) (x : Word) (k : Nat) :
    barrelStageRight amount x k = x >>> ((amount.getLsbD k).toNat * 2 ^ k) := by
  cases h : amount.getLsbD k <;> simp [barrelStageRight, h]

theorem foldl_barrelStageLeft (amount : BitVec 8) (ks : List Nat) (x : Word) :
    ks.foldl (barrelStageLeft amount) x = x <<< stagesShift amount ks := by
  induction ks generalizing x with
  | nil => simp [stagesShift]
  | cons k ks ih => simp [ih, barrelStageLeft_eq_shiftLeft, stagesShift, BitVec.shiftLeft_add]

theorem foldl_barrelStageRight (amount : BitVec 8) (ks : List Nat) (x : Word) :
    ks.foldl (barrelStageRight amount) x = x >>> stagesShift amount ks := by
  induction ks generalizing x with
  | nil => simp [stagesShift]
  | cons k ks ih => simp [ih, barrelStageRight_eq_ushiftRight, stagesShift, BitVec.shiftRight_add]

/-- The eight stages shift by the binary value of their selects. -/
theorem stagesShift_barrelStages (amount : BitVec 8) : stagesShift amount barrelStages = amount.toNat := by
  have h := amount.isLt
  simp only [stagesShift, barrelStages, List.map_cons, List.map_nil, List.sum_cons, List.sum_nil,
    BitVec.getLsbD, Nat.toNat_testBit]
  omega

theorem barrelLeft_eq_shiftLeft (amount : BitVec 8) (x : Word) : barrelLeft amount x = x <<< amount.toNat := by
  rw [barrelLeft, foldl_barrelStageLeft, stagesShift_barrelStages]

theorem barrelRight_eq_ushiftRight (amount : BitVec 8) (x : Word) : barrelRight amount x = x >>> amount.toNat := by
  rw [barrelRight, foldl_barrelStageRight, stagesShift_barrelStages]

theorem encBarrel_eq_encDatapath (t f d o : Word) : encBarrel t f d o = encDatapath t f d o := by
  rw [encDatapath_eq_or_of_shifts]
  simp [encBarrel, barrelLeft_eq_shiftLeft, barrelRight_eq_ushiftRight, BitVec.or_assoc]

theorem decBarrel_eq_decDatapath (w : Word) : decBarrel w = decDatapath w := by
  apply DecodeOutputs.eq_of_fields
  all_goals
    simp only [decBarrel, barrelRight_eq_ushiftRight, barrelLeft_eq_shiftLeft, and_mask_eq_setWidth_extractLsb',
      extractLsb'_ushiftRight]
  case ht => exact BitVec.setWidth_ushiftRight_eq_extractLsb
  case hf =>
    exact (BitVec.setWidth_setWidth_of_le (w.extractLsb' 128 96) (by decide)).trans (BitVec.setWidth_eq _)
  case hd => exact setWidth_shiftLeft_setWidth (k := 32) (n := 256) (w.extractLsb' 64 64) (by decide)
  case ho => exact setWidth_shiftLeft_setWidth (k := 32) (n := 256) (w.extractLsb' 0 64) (by decide)

/-- Settles O43: cascades are shifts, so both layouts are the datapaths themselves. -/
theorem barrelShifterLayoutConforms : Obligations.BarrelShifterLayoutConforms := by
  refine ⟨fun amount x => ⟨barrelLeft_eq_shiftLeft amount x, barrelRight_eq_ushiftRight amount x⟩, ?_, ?_⟩
  · intro t f d o
    rw [encBarrel_eq_encDatapath]
    exact encodeGives_encDatapath t f d o
  · intro w
    rw [decBarrel_eq_decDatapath]
    exact decodeGives_decDatapath w

end Sys2Proof.Machine
end

section
/-! PROOFS. The statements of 40_encode.md and the identity of 42_roundtrip.md R120: the encoded word as the
concatenation of its four fields, its four terms, its value in range, and the frame of an ENCODE. -/

namespace Sys2Proof.Machine

/-! ## Words, fields and concatenations -/

/-- A word is the concatenation of its four fields (30_encoding.md R60). -/
theorem eq_append_fields (w : Word) :
    w = w.extractLsb' 224 32 ++ w.extractLsb' 128 96 ++ w.extractLsb' 64 64 ++ w.extractLsb' 0 64 := by
  rw [BitVec.extractLsb'_append_extractLsb'_eq_extractLsb' (show 224 = 128 + 96 from rfl),
    BitVec.extractLsb'_append_extractLsb'_eq_extractLsb' (show 128 = 64 + 64 from rfl),
    BitVec.extractLsb'_append_extractLsb'_eq_extractLsb' (show 64 = 0 + 64 from rfl)]
  exact BitVec.extractLsb'_eq_self.symm

theorem toNat_append_eq_mul_add {m k : Nat} (v : BitVec m) (u : BitVec k) :
    (v ++ u).toNat = v.toNat * 2 ^ k + u.toNat := by
  rw [BitVec.toNat_append, ← Nat.shiftLeft_add_eq_or_of_lt u.isLt, Nat.shiftLeft_eq]

theorem ofNat_mod_two_pow (n x : Nat) : BitVec.ofNat n (x % 2 ^ n) = BitVec.ofNat n x := by
  apply BitVec.eq_of_toNat_eq
  rw [BitVec.toNat_ofNat, BitVec.toNat_ofNat, Nat.mod_mod]

/-- No bit above the zeros of `v ++ 0#k` is set in a value below `2 ^ k`. -/
theorem append_zero_and_eq_zero {m k : Nat} (v : BitVec m) {u : BitVec (m + k)} (hu : u.toNat < 2 ^ k) :
    (v ++ 0#k) &&& u = 0#(m + k) := by
  have hlow : u = 0#m ++ u.extractLsb' 0 k := by
    rw [← extractLsb'_eq_zero_of_toNat_lt hu le_rfl m, BitVec.extractLsb'_append_extractLsb']
  rw [hlow, BitVec.and_append, BitVec.and_zero, BitVec.zero_and, BitVec.zero_append_zero]

/-- The bound of a slice placed above zeros: it loses `start` bits and gains `k`. -/
theorem toNat_extractLsb'_append_zero_lt {n start j : Nat} {v : BitVec n} (hv : v.toNat < 2 ^ (start + j))
    (len k : Nat) : (v.extractLsb' start len ++ 0#k).toNat < 2 ^ (j + k) := by
  rw [toNat_append_zero, BitVec.extractLsb'_toNat, Nat.shiftRight_eq_div_pow, Nat.shiftLeft_eq, Nat.pow_add]
  have hdiv : v.toNat / 2 ^ start < 2 ^ j := Nat.div_lt_of_lt_mul (by rwa [← Nat.pow_add])
  exact Nat.mul_lt_mul_of_pos_right ((Nat.mod_le _ _).trans_lt hdiv) (Nat.two_pow_pos k)

/-! ## The encoded word by its fields (R86) and by its terms (R82) -/

section
variable (t f d o : Word)

theorem encDatapath_eq_append :
    encDatapath t f d o =
      (t.extractLsb' 0 32 ||| f.extractLsb' 96 32 ||| d.extractLsb' 192 32) ++
        (f.extractLsb' 0 96 ||| d.extractLsb' 96 96 ||| o.extractLsb' 160 96) ++
        (d.extractLsb' 32 64 ||| o.extractLsb' 96 64) ++ o.extractLsb' 32 64 := by
  rw [← encDatapath_timestamp_field t f d o, ← encDatapath_flowRate_field t f d o (start := 0) le_rfl,
    ← encDatapath_deposit_field, ← encDatapath_owedDeposit_field t f d o]
  exact eq_append_fields _

/-- The in-range word and the overflow word meet field by field. -/
theorem encDatapath_eq_or_overflow :
    encDatapath t f d o =
      (t.extractLsb' 0 32 ++ f.extractLsb' 0 96 ++ d.extractLsb' 32 64 ++ o.extractLsb' 32 64 : Word) |||
        ((f.extractLsb' 96 32 ||| d.extractLsb' 192 32) ++
          ((d.extractLsb' 128 64 ++ d.extractLsb' 96 32 : BitVec 96) ||| o.extractLsb' 160 96) ++
          o.extractLsb' 96 64 ++ 0#64 : Word) := by
  have hd : (d.extractLsb' 128 64 ++ d.extractLsb' 96 32 : BitVec 96) = d.extractLsb' 96 96 :=
    BitVec.extractLsb'_append_extractLsb'_eq_extractLsb' rfl
  rw [encDatapath_eq_append, hd, BitVec.or_append, BitVec.or_append, BitVec.or_append, BitVec.or_zero,
    ← BitVec.or_assoc, ← BitVec.or_assoc]

/-- Each shift of R81 is a slice above or below zeros. -/
theorem encDatapath_eq_or_of_terms :
    encDatapath t f d o =
      (t.extractLsb' 0 32 ++ 0#224 : Word) ||| (f.extractLsb' 0 128 ++ 0#128 : Word) |||
        (d.extractLsb' 32 192 ++ 0#64 : Word) ||| (0#32 ++ o.extractLsb' 32 224 : Word) := by
  have ht : t <<< 224 = t.extractLsb' 0 32 ++ 0#224 := BitVec.shiftLeft_eq_concat_of_lt (by decide)
  have hf : f <<< 128 = f.extractLsb' 0 128 ++ 0#128 := BitVec.shiftLeft_eq_concat_of_lt (by decide)
  have hd : (d >>> 32) <<< 64 = (d >>> 32).extractLsb' 0 192 ++ 0#64 :=
    BitVec.shiftLeft_eq_concat_of_lt (by decide)
  have ho : o >>> 32 = 0#32 ++ o.extractLsb' 32 224 := BitVec.ushiftRight_eq_extractLsb'_of_lt (by decide)
  rw [encDatapath_eq_or_of_shifts, ht, hf, hd, ho, extractLsb'_ushiftRight]

end

/-- Settles O5: the four terms are the four shifts, and in R83's example two terms set bit 224. -/
theorem encodeIsBitwiseOrOfFourTerms : Obligations.EncodeIsBitwiseOrOfFourTerms := by
  constructor
  · intro t f d o
    rw [← encDatapath_eq_or_of_terms]
    exact encodeGives_encDatapath t f d o
  · have hword : encDatapath 1 (BitVec.ofNat 256 (2 ^ 96)) 0 0 = BitVec.ofNat 256 (2 ^ 224) := by decide
    exact hword ▸ encodeGives_encDatapath 1 (BitVec.ofNat 256 (2 ^ 96)) 0 0

/-- Settles O7: field by field, the in-range word takes what R86's table says overflows into it. -/
theorem encodeOverflowLandsByTable : Obligations.EncodeOverflowLandsByTable := by
  intro t f d o
  rw [← encDatapath_eq_or_overflow]
  exact encodeGives_encDatapath t f d o

/-! ## The encoded word in range (R85) -/

section
variable {t f d o : Word} (h : inRange t f d o = true)
include h

theorem encDatapath_eq_append_of_inRange :
    encDatapath t f d o =
      t.extractLsb' 0 32 ++ f.extractLsb' 0 96 ++ d.extractLsb' 32 64 ++ o.extractLsb' 32 64 := by
  rw [← encDatapath_timestamp_field_of_inRange h,
    ← encDatapath_flowRate_field_of_inRange (start := 0) h le_rfl, ← encDatapath_deposit_field_of_inRange h,
    ← encDatapath_owedDeposit_field t f d o]
  exact eq_append_fields _

/-- In range every slice keeps its whole field, so the value is the sum of the placed fields. -/
theorem toNat_encDatapath_of_inRange :
    (encDatapath t f d o).toNat =
      t.toNat * 2 ^ 224 + f.toNat * 2 ^ 128 + d.toNat / 2 ^ 32 * 2 ^ 64 + o.toNat / 2 ^ 32 := by
  obtain ⟨ht, hf, hd, ho⟩ := (inRange_iff t f d o).1 h
  simp only [encDatapath_eq_append_of_inRange h, toNat_append_eq_mul_add, BitVec.extractLsb'_toNat,
    Nat.shiftRight_eq_div_pow]
  omega

end

/-- Settles O6: each term but the last stands above zeros at least as many as the bits of each later one. -/
theorem encodeInRangeIsConcatenation : Obligations.EncodeInRangeIsConcatenation := by
  intro t f d o ht hf hd ho
  have h : inRange t f d o = true := (inRange_iff t f d o).2 ⟨ht, hf, hd, ho⟩
  have hF : (f.extractLsb' 0 128 ++ 0#128).toNat < 2 ^ 224 := toNat_extractLsb'_append_zero_lt (j := 96) hf 128 128
  have hD : (d.extractLsb' 32 192 ++ 0#64).toNat < 2 ^ 128 := toNat_extractLsb'_append_zero_lt (j := 64) hd 192 64
  have hO : (0#32 ++ o.extractLsb' 32 224).toNat < 2 ^ 64 := by
    simp only [toNat_append_eq_mul_add, BitVec.extractLsb'_toNat, BitVec.toNat_ofNat, Nat.shiftRight_eq_div_pow]
    omega
  refine ⟨_, encodeGives_encDatapath t f d o, encDatapath_eq_append_of_inRange h, toNat_encDatapath_of_inRange h,
    append_zero_and_eq_zero (t.extractLsb' 0 32) hF, append_zero_and_eq_zero (t.extractLsb' 0 32) ?_,
    append_zero_and_eq_zero (t.extractLsb' 0 32) ?_, append_zero_and_eq_zero (f.extractLsb' 0 128) hD,
    append_zero_and_eq_zero (f.extractLsb' 0 128) ?_, append_zero_and_eq_zero (d.extractLsb' 32 192) hO⟩
  · exact hD.trans (by decide)
  · exact hO.trans (by decide)
  · exact hO.trans (by decide)

/-- Settles O8: the in-range value is a numeral whose digits are the stored fields. -/
theorem encodeInRangeEqualWords : Obligations.EncodeInRangeEqualWords := by
  intro t f d o t' f' d' o' h h'
  refine ⟨_, _, encodeGives_encDatapath t f d o, encodeGives_encDatapath t' f' d' o', ?_⟩
  obtain ⟨ht, hf, hd, ho⟩ := (inRange_iff t f d o).1 h
  obtain ⟨ht', hf', hd', ho'⟩ := (inRange_iff t' f' d' o').1 h'
  rw [← BitVec.toNat_inj, ← BitVec.toNat_inj (x := t), ← BitVec.toNat_inj (x := f),
    toNat_encDatapath_of_inRange h, toNat_encDatapath_of_inRange h']
  omega

/-! ## ENCODE of what DECODE gives (42_roundtrip.md R120) -/

/-- A value on a wider port stays below its own width's bound. -/
theorem toNat_setWidth_lt {m : Nat} (v : BitVec m) (n : Nat) : (v.setWidth n).toNat < 2 ^ m := by
  rw [BitVec.toNat_setWidth]
  exact (Nat.mod_le _ _).trans_lt v.isLt

/-- DECODE's outputs on ENCODE's ports are in range. -/
theorem inRange_toPort (x : DecodeOutputs) :
    inRange (toPort x.timestamp) (toPort x.flowRate) (toPort x.deposit) (toPort x.owedDeposit) = true :=
  (inRange_iff ..).2 ⟨toNat_setWidth_lt _ _, toNat_setWidth_lt _ _, toNat_setWidth_lt _ _, toNat_setWidth_lt _ _⟩

theorem extractLsb'_toPort {n start len : Nat} (v : BitVec n) (h : start + len ≤ 256) :
    (toPort v).extractLsb' start len = v.extractLsb' start len :=
  BitVec.extractLsb'_setWidth_of_le h

theorem encDatapath_toPort_decDatapath (w : Word) :
    encDatapath (toPort (decDatapath w).timestamp) (toPort (decDatapath w).flowRate)
      (toPort (decDatapath w).deposit) (toPort (decDatapath w).owedDeposit) = w := by
  rw [encDatapath_eq_append_of_inRange (inRange_toPort (decDatapath w)), extractLsb'_toPort _ (by decide),
    extractLsb'_toPort _ (by decide), extractLsb'_toPort _ (by decide), extractLsb'_toPort _ (by decide),
    decDatapath_deposit, decDatapath_owedDeposit, BitVec.extractLsb'_append_eq_left,
    BitVec.extractLsb'_append_eq_left, BitVec.extractLsb'_eq_self, BitVec.extractLsb'_eq_self]
  exact (eq_append_fields w).symm

/-- Settles O16: DECODE's outputs are in range, and their slices are the fields of the word. -/
theorem encodeAfterDecodeIsIdentity : Obligations.EncodeAfterDecodeIsIdentity := by
  intro w
  have hgives := encodeGives_encDatapath (toPort (decDatapath w).timestamp) (toPort (decDatapath w).flowRate)
    (toPort (decDatapath w).deposit) (toPort (decDatapath w).owedDeposit)
  rw [encDatapath_toPort_decDatapath] at hgives
  exact ⟨_, decodeGives_decDatapath w, hgives⟩

/-! ## What an ENCODE changes -/

/-- Settles O9: a completed ENCODE is a drive of its four inputs and a sample of its output, and no more. -/
theorem encodeHasNoSideEffect : Obligations.EncodeHasNoSideEffect := by
  refine ⟨fun t f d o s hs => ⟨_, execEncode_values hs t f d o⟩, fun t f d o s => ⟨nofun, fun u hu => ?_⟩⟩
  obtain ⟨-, e, he, rfl⟩ := (execEncode_next_iff ..).1 hu
  exact ⟨rfl, rfl, rfl, rfl, he.symm, rfl, rfl, rfl, rfl, rfl, fun hw => decOutputsNow_driveEnc hw t f d o⟩

/-- Settles O1: `trunc_256` is the reduction that making a word does. -/
theorem encodeSamplesTruncatedUnion : Obligations.EncodeSamplesTruncatedUnion := by
  intro t f d o s hs
  rw [ofNat_mod_two_pow]
  exact execEncode_values hs t f d o

end Sys2Proof.Machine
end

section
/-! PROOFS. The statement of 41_decode.md: the frame of a DECODE. -/

namespace Sys2Proof.Machine

/-- Without a wire on its inputs `enc_word` carries what it did, whatever drives `dec_word` now. -/
theorem encWordNow_driveDec {s : State} (ht : s.encTimestamp ≠ .wired) (hf : s.encFlowRate ≠ .wired)
    (hd : s.encDeposit ≠ .wired) (ho : s.encOwedDeposit ≠ .wired) (w : Drive) :
    (s.driveDec w).encWordNow = s.encWordNow :=
  calc (s.driveDec w).encWordNow = (s.driveDec w).encFromPorts := encWordNow_eq_encFromPorts ht hf hd ho
    _ = s.encFromPorts := encFromPorts_congr rfl rfl rfl rfl
    _ = s.encWordNow := (encWordNow_eq_encFromPorts ht hf hd ho).symm

/-- Settles O10: a completed DECODE is a drive of its input and a sample of its four outputs, and no more. -/
theorem decodeHasNoSideEffect : Obligations.DecodeHasNoSideEffect := by
  refine ⟨fun w s hs => ⟨_, execDecode_value hs w⟩, fun w s => ⟨nofun, fun u hu => ?_⟩⟩
  obtain ⟨-, x, hx, rfl⟩ := (execDecode_next_iff ..).1 hu
  exact ⟨rfl, hx.symm, rfl, rfl, rfl, rfl, rfl, rfl, rfl, rfl,
    fun ht hf hd ho => encWordNow_driveDec ht hf hd ho w⟩

end Sys2Proof.Machine
end

section
/-! PROOFS. The statements of 60_exceptions.md section 3: in which cases a transaction is refused (R152), read off from
the inputs on which an output has no value and from the name such an input is refused under; and that a queue of
transactions on constants meets none of those cases (R151). -/

namespace Sys2Proof

/-- A port has no value where a bit of it has none, or where the output across the wire has none. -/
theorem Drive.read_eq_none_iff (p : Drive) (wire : Option Word) :
    p.read wire = none ↔ p = .notTwoValued ∨ (wire = none ∧ p = .wired) := by
  cases p <;> simp

/-- A transaction on constants is an ENCODE of four words or a DECODE of one. -/
theorem Instr.constant_iff (i : Instr) :
    i.constant = true ↔
      (∃ t f d o, i = .encode (.value t) (.value f) (.value d) (.value o)) ∨ ∃ w, i = .decode (.value w) := by
  constructor
  · intro h
    unfold Instr.constant at h
    split at h
    · exact .inl ⟨_, _, _, _, rfl⟩
    · cases h
    · exact .inr ⟨_, rfl⟩
    · cases h
  · rintro (⟨t, f, d, o, rfl⟩ | ⟨w, rfl⟩) <;> rfl

end Sys2Proof

namespace Sys2Proof.Machine

/-! ## Where an output has no value (10_state.md R30) -/

/-- Some `enc_*` input is driven in the form `p`. -/
def State.SomeEncInput (p : Drive) (s : State) : Prop :=
  s.encTimestamp = p ∨ s.encFlowRate = p ∨ s.encDeposit = p ∨ s.encOwedDeposit = p

/-- An encoded word has a value only where all four of its inputs do. -/
theorem encDatapath_bind_eq_none_iff (t f d o : Option Word) :
    (do return encDatapath (← t) (← f) (← d) (← o)) = none ↔ t = none ∨ f = none ∨ d = none ∨ o = none := by
  rcases t with _ | t
  · simp
  rcases f with _ | f
  · simp
  rcases d with _ | d
  · simp
  cases o <;> simp

theorem decFromPort_eq_none_iff (s : State) :
    s.decFromPort = none ↔ s.decWord = .notTwoValued ∨ s.decWord = .wired := by
  simp [State.decFromPort, Drive.read_eq_none_iff]

theorem encFromPorts_eq_none_iff (s : State) :
    s.encFromPorts = none ↔ s.SomeEncInput .notTwoValued ∨ s.SomeEncInput .wired := by
  simp only [State.encFromPorts, encDatapath_bind_eq_none_iff, Drive.read_eq_none_iff, State.SomeEncInput]
  tauto

/-- `enc_word` has no value where one of its inputs has none, itself or through a wire from a `dec_*` output. -/
theorem encWordNow_eq_none_iff (s : State) :
    s.encWordNow = none ↔
      s.SomeEncInput .notTwoValued ∨
        ((s.decWord = .notTwoValued ∨ s.decWord = .wired) ∧ s.SomeEncInput .wired) := by
  simp only [State.encWordNow, encDatapath_bind_eq_none_iff, Drive.read_eq_none_iff, Option.map_eq_none_iff,
    decFromPort_eq_none_iff, State.SomeEncInput]
  tauto

/-- The `dec_*` outputs have no value where `dec_word` has none, itself or through the wire from `enc_word`. -/
theorem decOutputsNow_eq_none_iff (s : State) :
    s.decOutputsNow = none ↔
      s.decWord = .notTwoValued ∨
        (s.decWord = .wired ∧ (s.SomeEncInput .notTwoValued ∨ s.SomeEncInput .wired)) := by
  simp [State.decOutputsNow, Drive.read_eq_none_iff, encFromPorts_eq_none_iff, and_comm]

/-! ## The name of the refusal -/

theorem hasLoop_iff (s : State) : s.hasLoop = true ↔ s.decWord = .wired ∧ s.SomeEncInput .wired := by
  simp [State.hasLoop, Drive.isWired_iff, State.SomeEncInput, or_assoc]

theorem inputRefusal_of_loop {s : State} (h : s.decWord = .wired ∧ s.SomeEncInput .wired) :
    s.inputRefusal = .combinationalLoop :=
  if_pos ((hasLoop_iff s).2 h)

theorem inputRefusal_of_no_loop {s : State} (h : ¬(s.decWord = .wired ∧ s.SomeEncInput .wired)) :
    s.inputRefusal = .inputNotTwoValued :=
  if_neg (mt (hasLoop_iff s).1 h)

/-- The cases in which a settled `enc_word` cannot be sampled, each with its name. -/
theorem encWordNow_refusal_iff (s : State) (r : Refusal) :
    s.encWordNow = none ∧ r = s.inputRefusal ↔
      (s.decWord = .wired ∧ s.SomeEncInput .wired ∧ r = .combinationalLoop) ∨
        (¬(s.decWord = .wired ∧ s.SomeEncInput .wired) ∧
          (s.SomeEncInput .notTwoValued ∨ (s.decWord = .notTwoValued ∧ s.SomeEncInput .wired)) ∧
          r = .inputNotTwoValued) := by
  rw [encWordNow_eq_none_iff]
  by_cases hl : s.decWord = .wired ∧ s.SomeEncInput .wired
  · rw [inputRefusal_of_loop hl]
    tauto
  · rw [inputRefusal_of_no_loop hl]
    tauto

/-- The cases in which settled `dec_*` outputs cannot be sampled, each with its name. -/
theorem decOutputsNow_refusal_iff (s : State) (r : Refusal) :
    s.decOutputsNow = none ∧ r = s.inputRefusal ↔
      (s.decWord = .wired ∧ s.SomeEncInput .wired ∧ r = .combinationalLoop) ∨
        (s.decWord = .notTwoValued ∧ r = .inputNotTwoValued) ∨
        (s.decWord = .wired ∧ ¬s.SomeEncInput .wired ∧ s.SomeEncInput .notTwoValued ∧ r = .inputNotTwoValued) := by
  rw [decOutputsNow_eq_none_iff]
  by_cases hl : s.decWord = .wired ∧ s.SomeEncInput .wired
  · rw [inputRefusal_of_loop hl]
    simp [hl]
  · rw [inputRefusal_of_no_loop hl]
    tauto

/-- Settles O14: an early sample is refused first; a settled one where `enc_word` has no value. -/
theorem encodeRefusedExactly : Obligations.EncodeRefusedExactly := fun t f d o s r =>
  (sampleEnc_refused_iff (s.driveEnc t f d o) r).trans <|
    or_congr_right <| and_congr_right fun _ => encWordNow_refusal_iff (s.driveEnc t f d o) r

/-- Settles O15: an early sample is refused first; a settled one where the `dec_*` outputs have no value. -/
theorem decodeRefusedExactly : Obligations.DecodeRefusedExactly := by
  intro w s r
  have hnone := decOutputsNow_refusal_iff (s.driveDec w) r
  simp only [State.SomeEncInput, not_or, and_assoc] at hnone
  exact (sampleDec_refused_iff (s.driveDec w) r).trans (or_congr_right (and_congr_right fun _ => hnone))

/-! ## A queue of transactions on constants -/

/-- A transaction on constants completes once settled, and what it leaves is ready for the next. -/
theorem exec_of_constant {i : Instr} {s : State} (hi : i.constant = true) (hs : s.sampling = .settled)
    (hm : SamplesMatchInputs s) :
    ∃ u, exec i s = .next u ∧ u.sampling = .settled ∧ u.pending = s.pending ∧ SamplesMatchInputs u := by
  obtain ⟨t, f, d, o, rfl⟩ | ⟨w, rfl⟩ := (Instr.constant_iff i).1 hi
  · exact ⟨_, execEncode_values hs t f d o, hs, rfl, hm.encode (encWordNow_of_values rfl rfl rfl rfl)⟩
  · exact ⟨_, execDecode_value hs w, hs, rfl, hm.decode (decOutputsNow_of_value rfl)⟩

/-- A run goes on from where its first step ends. -/
theorem run_succ_of_step (M : Host.Core) {s u : M.State} (h : M.step s = .next u) (k : Nat) :
    M.run (k + 1) s = M.run k u := by
  simp only [Host.Core.run, h]

/-- Settles O38, by induction on the queue: each step runs its first record and leaves a state with the rest waiting,
of which the same holds. -/
theorem constantTransactionsRunToTheEnd : Obligations.ConstantTransactionsRunToTheEnd := by
  intro s hs hc hm
  induction hp : s.pending generalizing s with
  | nil => exact ⟨s, rfl, hp, hm⟩
  | cons r rest ih =>
    rw [PendingConstant, hp] at hc
    obtain ⟨⟨i, hdec, hi⟩, hrest⟩ := List.forall_mem_cons.1 hc
    obtain ⟨v, hexec, hv, hvp, hvm⟩ := exec_of_constant hi (s := s.putPending rest) hs (hm.putPending rest)
    have hstep : step s = .next v := (step_of_decode_ok hp hdec).trans hexec
    obtain ⟨u, hrun, hu⟩ := ih v hv (by rwa [PendingConstant, hvp]) hvm hvp
    exact ⟨u, (run_succ_of_step Sys2Proof.core hstep _).trans hrun, hu⟩

end Sys2Proof.Machine
end

section
/-! PROOFS. The statements of 70_reset_and_hazards.md: the first evaluation after reset (section 1), and what a wired
input carries to the other datapath (section 2, R165). -/

namespace Sys2Proof

/-- A port is a constant, or a wire that carries the same value: either way that is what it reads. -/
theorem Drive.read_eq_some_of_value_or_wired {p : Drive} {v wire : Word}
    (h : p = .value v ∨ (p = .wired ∧ v = wire)) : p.read (some wire) = some v := by
  obtain rfl | ⟨rfl, rfl⟩ := h
  · exact Drive.read_value v _
  · exact Drive.read_wired _

end Sys2Proof

namespace Sys2Proof.Machine

/-! ## What a wire carries (R165) -/

theorem decFromPort_of_value {s : State} {w : Word} (h : s.decWord = .value w) :
    s.decFromPort = some (decDatapath w) := by
  simp [State.decFromPort, h]

theorem encFromPorts_of_values {s : State} {t f d o : Word} (ht : s.encTimestamp = .value t)
    (hf : s.encFlowRate = .value f) (hd : s.encDeposit = .value d) (ho : s.encOwedDeposit = .value o) :
    s.encFromPorts = some (encDatapath t f d o) := by
  simp [State.encFromPorts, ht, hf, hd, ho]

/-- While `dec_word` is a constant, `enc_word` is ENCODE of what its inputs read, across a wire a `dec_*` output. -/
theorem encWordNow_of_reads {s : State} {w t f d o : Word} (hw : s.decWord = .value w)
    (ht : s.encTimestamp.read (some (toPort (decDatapath w).timestamp)) = some t)
    (hf : s.encFlowRate.read (some (toPort (decDatapath w).flowRate)) = some f)
    (hd : s.encDeposit.read (some (toPort (decDatapath w).deposit)) = some d)
    (ho : s.encOwedDeposit.read (some (toPort (decDatapath w).owedDeposit)) = some o) :
    s.encWordNow = some (encDatapath t f d o) := by
  simp only [State.encWordNow, decFromPort_of_value hw, Option.map_some, ht, hf, hd, ho]
  rfl

/-- A wired `dec_word` gives DECODE of ENCODE of the constants across. -/
theorem decOutputsNow_of_wired {s : State} {t f d o : Word} (hw : s.decWord = .wired)
    (ht : s.encTimestamp = .value t) (hf : s.encFlowRate = .value f) (hd : s.encDeposit = .value d)
    (ho : s.encOwedDeposit = .value o) : s.decOutputsNow = some (decDatapath (encDatapath t f d o)) := by
  refine (decOutputsNow_eq_some_iff ..).2 ⟨_, ?_, rfl⟩
  rw [hw, Drive.read_wired]
  exact encFromPorts_of_values ht hf hd ho

/-- Settles O11: each operand reads the value it carries, so `enc_word` has one to sample. -/
theorem encodeWiredOperandsComplete : Obligations.EncodeWiredOperandsComplete := by
  intro t f d o a b c e w s hs hw ht hf hd ho
  have hnow : (s.driveEnc t f d o).encWordNow = some (encDatapath a b c e) :=
    encWordNow_of_reads hw (Drive.read_eq_some_of_value_or_wired ht) (Drive.read_eq_some_of_value_or_wired hf)
      (Drive.read_eq_some_of_value_or_wired hd) (Drive.read_eq_some_of_value_or_wired ho)
  exact (execEncode_next_iff ..).2 ⟨hs, _, hnow, rfl⟩

/-- Settles O13: the four wires carry DECODE's outputs, and ENCODE of those is the word (R120). -/
theorem wiredDecodeToEncodeGivesWord : Obligations.WiredDecodeToEncodeGivesWord := by
  intro w s hs hw
  have hexec := encodeWiredOperandsComplete .wired .wired .wired .wired _ _ _ _ w s hs hw
    (.inr ⟨rfl, rfl⟩) (.inr ⟨rfl, rfl⟩) (.inr ⟨rfl, rfl⟩) (.inr ⟨rfl, rfl⟩)
  exact ⟨_, hexec, congrArg some (encDatapath_toPort_decDatapath w)⟩

/-- Settles O12: the wire carries ENCODE of the four constants, which DECODE then takes. -/
theorem decodeWiredOperandCompletes : Obligations.DecodeWiredOperandCompletes := by
  intro t f d o s hs ht hf hd ho
  have hnow : (s.driveDec .wired).decOutputsNow = some (decDatapath (encDatapath t f d o)) :=
    decOutputsNow_of_wired rfl ht hf hd ho
  exact (execDecode_next_iff ..).2 ⟨hs, _, hnow, rfl⟩

/-! ## Reset (R160, R162) -/

/-- At reset no `enc_*` input is driven. -/
theorem encWordNow_reset : State.reset.encWordNow = none :=
  (encWordNow_eq_none_iff _).2 (.inl (.inl rfl))

/-- At reset `dec_word` is not driven. -/
theorem decOutputsNow_reset : State.reset.decOutputsNow = none :=
  (decOutputsNow_eq_none_iff _).2 (.inl rfl)

/-- Settles O31: a transaction on constants samples its datapath's function of them, from reset as from any state. -/
theorem firstEvaluationAfterResetIsAsAnyOther : Obligations.FirstEvaluationAfterResetIsAsAnyOther := by
  refine ⟨encWordNow_reset, decOutputsNow_reset, rfl, rfl, fun i s hi hs => ?_⟩
  obtain ⟨t, f, d, o, rfl⟩ | ⟨w, rfl⟩ := (Instr.constant_iff i).1 hi
  · exact ⟨_, _, execEncode_values rfl t f d o, execEncode_values hs t f d o, nofun, fun _ _ _ _ _ => rfl⟩
  · exact ⟨_, _, execDecode_value rfl w, execDecode_value hs w, fun _ _ => rfl, nofun⟩

end Sys2Proof.Machine
end

section
/-! PROOFS. The statements of 30_encoding.md section 5 on the bits of a record (log entry 8): the bits of its operands
are digits in base `2^256` above the `op` bit, so a record is read off its bits exactly as it is written into them. -/

namespace Sys2Proof

/-! ## Digits -/

/-- A number's lowest digit and its rest in base `2 ^ n` determine it and are determined by it. -/
theorem ofNat_eq_and_div_eq_iff {n a b : Nat} (v : BitVec n) :
    BitVec.ofNat n a = v ∧ a / 2 ^ n = b ↔ v.toNat + 2 ^ n * b = a := by
  have hdigit := Nat.div_mod_unique (a := a) (c := v.toNat) (d := b) (Nat.two_pow_pos n)
  rw [← BitVec.toNat_inj, BitVec.toNat_ofNat, and_comm, hdigit, and_iff_left v.isLt]

/-! ## The bits of operands and of records -/

theorem bitsOfOperands_cons_value_eq_some_iff (v : Word) (ps : List Drive) (bits : Nat) :
    bitsOfOperands (.value v :: ps) = some bits ↔
      BitVec.ofNat 256 bits = v ∧ bitsOfOperands ps = some (bits / 2 ^ 256) := by
  constructor
  · intro h
    obtain ⟨b, hb, hbits⟩ := Option.map_eq_some_iff.1 h
    obtain ⟨hv, rfl⟩ := (ofNat_eq_and_div_eq_iff v).2 hbits
    exact ⟨hv, hb⟩
  · rintro ⟨hv, hps⟩
    exact Option.map_eq_some_iff.2 ⟨_, hps, (ofNat_eq_and_div_eq_iff v).1 ⟨hv, rfl⟩⟩

/-- As many operands as are asked for are read off a number exactly when it is their bits. -/
theorem operandsOfBits_eq_iff (ps : List Drive) (bits : Nat) :
    operandsOfBits ps.length bits = ps ↔ bitsOfOperands ps = some bits := by
  induction ps generalizing bits with
  | nil => simp [operandsOfBits, bitsOfOperands, eq_comm]
  | cons p ps ih =>
    rw [List.length_cons, operandsOfBits, List.cons.injEq, ih]
    cases p with
    | value v => rw [bitsOfOperands_cons_value_eq_some_iff, Drive.value.injEq]
    | wired => simp [bitsOfOperands]
    | notTwoValued => simp [bitsOfOperands]

/-- A record with the operands its `op` asks for is read off a number exactly when it is its bits. -/
theorem recordOfBits_eq_iff {r : Record} (hr : r.operands.length = operandCount r.op) (bits : Nat) :
    recordOfBits bits = r ↔ bitsOfRecord r = some bits := by
  obtain ⟨op, ps⟩ := r
  have hps (hop : BitVec.ofNat 1 bits = op) :
      operandsOfBits (operandCount (BitVec.ofNat 1 bits)) (bits / 2) = ps ↔ bitsOfOperands ps = some (bits / 2) := by
    rw [hop, ← hr, operandsOfBits_eq_iff]
  calc recordOfBits bits = ⟨op, ps⟩
      ↔ BitVec.ofNat 1 bits = op ∧ bitsOfOperands ps = some (bits / 2) := by
        rw [recordOfBits, Record.mk.injEq]
        exact and_congr_right hps
    _ ↔ ∃ b, bitsOfOperands ps = some b ∧ BitVec.ofNat 1 bits = op ∧ bits / 2 = b := by simp [and_comm]
    _ ↔ ∃ b, bitsOfOperands ps = some b ∧ op.toNat + 2 * b = bits :=
        exists_congr fun _ => and_congr_right fun _ => ofNat_eq_and_div_eq_iff op
    _ ↔ bitsOfRecord ⟨op, ps⟩ = some bits := Option.map_eq_some_iff.symm

theorem length_operands_encode (i : Instr) : (encode i).operands.length = operandCount (encode i).op := by
  cases i with
  | encode t f d o => rfl
  | decode w => rfl

/-- Bits decode to a transaction exactly when they are its encoding. -/
theorem decodeBits_eq_ok_iff (bits : Nat) (i : Instr) : decodeBits bits = .ok i ↔ encodeBits i = some bits := by
  rw [decodeBits, decode_eq_ok_iff, recordOfBits_eq_iff (length_operands_encode i), encodeBits]

/-! ## How many bits a record on constants has -/

theorem exists_bitsOfOperands_lt (ws : List Word) :
    ∃ bits < 2 ^ (256 * ws.length), bitsOfOperands (ws.map .value) = some bits := by
  induction ws with
  | nil => exact ⟨0, Nat.one_pos, rfl⟩
  | cons w ws ih =>
    obtain ⟨b, hb, hws⟩ := ih
    refine ⟨w.toNat + 2 ^ 256 * b, ?_, by rw [List.map_cons, bitsOfOperands, hws, Option.map_some]⟩
    have hw := w.isLt
    calc w.toNat + 2 ^ 256 * b < 2 ^ 256 * (b + 1) := by omega
      _ ≤ 2 ^ 256 * 2 ^ (256 * ws.length) := Nat.mul_le_mul_left _ hb
      _ = 2 ^ (256 * (w :: ws).length) := by rw [← Nat.pow_add, List.length_cons, Nat.mul_succ, Nat.add_comm]

theorem exists_bitsOfRecord_lt (op : BitVec 1) (ws : List Word) {n : Nat} (hn : 1 + 256 * ws.length ≤ n) :
    ∃ bits < 2 ^ n, bitsOfRecord ⟨op, ws.map .value⟩ = some bits := by
  obtain ⟨b, hb, hws⟩ := exists_bitsOfOperands_lt ws
  refine ⟨op.toNat + 2 * b, ?_, by rw [bitsOfRecord, hws, Option.map_some]⟩
  have hop := op.isLt
  have hpow : 2 ^ (1 + 256 * ws.length) ≤ 2 ^ n := Nat.pow_le_pow_right Nat.two_pos hn
  rw [Nat.pow_add] at hpow
  omega

/-- A transaction on constants has bits: 1025 of them for ENCODE, 257 for DECODE. -/
theorem exists_encodeBits_lt_of_constant {i : Instr} (hi : i.constant = true) :
    ∃ bits < 2 ^ 1025, encodeBits i = some bits := by
  obtain ⟨t, f, d, o, rfl⟩ | ⟨w, rfl⟩ := (Instr.constant_iff i).1 hi
  · exact exists_bitsOfRecord_lt 0#1 [t, f, d, o] (by simp)
  · exact exists_bitsOfRecord_lt 1#1 [w] (by simp)

/-- Settles O36: digit by digit, a record is read off a number exactly when it is written as that number. -/
theorem recordBitsDecodeAndEncodeAgree : Obligations.RecordBitsDecodeAndEncodeAgree := by
  refine ⟨decodeBits_eq_ok_iff, fun i hi => ?_⟩
  obtain ⟨bits, hlt, hbits⟩ := exists_encodeBits_lt_of_constant hi
  exact ⟨bits, hbits, hlt, (decodeBits_eq_ok_iff bits i).2 hbits⟩

/-- Settles O34: each record is the encoding of its transaction, in the layout of log entry 8. -/
theorem specRecordsDecode : Obligations.SpecRecordsDecode := ⟨rfl, rfl, rfl, rfl, rfl⟩

end Sys2Proof

namespace Sys2Proof.Machine

/-! ## A placed record -/

theorem decodeTableWord_eq_some_iff (nbits w : Nat) (i : Instr) :
    decodeTableWord nbits w = some i ↔ decode (recordOfBits (w % 2 ^ nbits)) = .ok i := by
  rw [decodeTableWord, decodeBits]
  cases decode (recordOfBits (w % 2 ^ nbits)) with
  | error e => simp [Except.toOption]
  | ok j => simp [Except.toOption]

/-- Settles O33: the placed record is the first that waits, and taking it leaves the state it was placed in. -/
theorem fetchedWordRunsNext : Obligations.FetchedWordRunsNext := fun s nbits w i hi =>
  step_of_decode_ok (s := s.withFetchWord nbits w) (rest := s.pending) rfl
    ((decodeTableWord_eq_some_iff nbits w i).1 hi)

end Sys2Proof.Machine
end

section
/-! PROOFS. The statement of 20_memory.md R45: the bytes of a packed word in either order (log entry 13). -/

namespace Sys2Proof.Machine

theorem length_bytesUpward (n v : Nat) : (bytesUpward n v).length = n := by
  induction n generalizing v with
  | zero => rfl
  | succ n ih => rw [bytesUpward, List.length_cons, ih]

/-- A number below `2 ^ (8 * n)` is what its low `n` bytes stand for. -/
theorem natOfBytesUpward_bytesUpward {n v : Nat} (hv : v < 2 ^ (8 * n)) :
    natOfBytesUpward (bytesUpward n v) = v := by
  induction n generalizing v with
  | zero => exact (Nat.lt_one_iff.1 hv).symm
  | succ n ih =>
    have hrest : v / 2 ^ 8 < 2 ^ (8 * n) := Nat.div_lt_of_lt_mul (by rwa [← Nat.pow_add, Nat.add_comm 8])
    rw [bytesUpward, natOfBytesUpward, ih hrest, BitVec.toNat_ofNat, Nat.mod_add_div]

/-- Settles O42: most significant first is the other order reversed, so both come down to the bytes upward. -/
theorem serialBytesRoundTrip : Obligations.SerialBytesRoundTrip := by
  intro order w
  have hlen := length_bytesUpward 32 w.toNat
  have hword : BitVec.ofNat 256 (natOfBytesUpward (bytesUpward 32 w.toNat)) = w := by
    rw [natOfBytesUpward_bytesUpward w.isLt, BitVec.ofNat_toNat, BitVec.setWidth_eq]
  cases order with
  | leastSignificantFirst => exact ⟨hlen, hword⟩
  | mostSignificantFirst => exact ⟨by rw [serialBytes, List.length_reverse, hlen],
      by rw [serialBytes, ofSerialBytes, List.reverse_reverse, hword]⟩

end Sys2Proof.Machine
end

section
/-! PROOFS. The laws of 42_roundtrip.md (R121, R123 to R126, R130) and of 40_encode.md R90: what one transaction gives
is its datapath's value, and the fields of an encoded word say what DECODE makes of it. -/

namespace Sys2Proof.Machine

/-! ## What a transaction gives is its datapath's value -/

theorem encodeGives_iff (t f d o e : Word) : EncodeGives t f d o e ↔ encDatapath t f d o = e := by
  constructor
  · intro h
    obtain ⟨u, hexec, hu⟩ := h State.reset rfl
    obtain rfl := Host.Outcome.next.inj ((execEncode_values rfl t f d o).symm.trans hexec)
    exact Option.some.inj hu
  · rintro rfl
    exact encodeGives_encDatapath t f d o

theorem decodeGives_iff (w : Word) (x : DecodeOutputs) : DecodeGives w x ↔ decDatapath w = x := by
  constructor
  · intro h
    obtain ⟨u, hexec, hu⟩ := h State.reset rfl
    obtain rfl := Host.Outcome.next.inj ((execDecode_value rfl w).symm.trans hexec)
    exact Option.some.inj hu
  · rintro rfl
    exact decodeGives_decDatapath w

/-! ## ENCODE undoes DECODE (R121) -/

theorem decDatapath_injective : Function.Injective decDatapath := by
  intro w₁ w₂ h
  rw [← encDatapath_toPort_decDatapath w₁, h, encDatapath_toPort_decDatapath]

/-- Settles O17: ENCODE is a left inverse of DECODE (R120). -/
theorem decodeInjectiveEncodeSurjective : Obligations.DecodeInjectiveEncodeSurjective := by
  constructor
  · intro w₁ w₂ x h₁ h₂
    rw [decodeGives_iff] at h₁ h₂
    exact decDatapath_injective (h₁.trans h₂.symm)
  · exact fun w => ⟨_, _, _, _, (encodeGives_iff ..).2 (encDatapath_toPort_decDatapath w)⟩

/-! ## Low slices of a value that fits them, and amounts above 32 zeros -/

theorem toNat_extractLsb'_zero_of_toNat_lt {n len : Nat} {v : BitVec n} (hv : v.toNat < 2 ^ len) :
    (v.extractLsb' 0 len).toNat = v.toNat := by
  rw [toNat_extractLsb'_of_toNat_lt (by simpa using hv), Nat.shiftRight_zero]

theorem setWidth_extractLsb'_zero_of_toNat_lt {n len : Nat} {v : BitVec n} (hv : v.toNat < 2 ^ len) :
    (v.extractLsb' 0 len).setWidth n = v := by
  apply BitVec.eq_of_toNat_eq
  rw [BitVec.toNat_setWidth, toNat_extractLsb'_zero_of_toNat_lt hv, Nat.mod_eq_of_lt v.isLt]

theorem extractLsb'_zero_inj_of_toNat_lt {n len : Nat} {v u : BitVec n} (hv : v.toNat < 2 ^ len)
    (hu : u.toNat < 2 ^ len) : v.extractLsb' 0 len = u.extractLsb' 0 len ↔ v = u := by
  rw [← BitVec.toNat_inj, toNat_extractLsb'_zero_of_toNat_lt hv, toNat_extractLsb'_zero_of_toNat_lt hu,
    BitVec.toNat_inj]

/-- An OR adds nothing exactly where the one has no 1 where the other has a 0. -/
theorem or_eq_left_iff_and_not_eq_zero {n : Nat} (a b : BitVec n) : a ||| b = a ↔ b &&& ~~~a = 0 := by
  simp only [BitVec.eq_of_getLsbD_eq_iff, BitVec.getLsbD_or, BitVec.getLsbD_and, BitVec.getLsbD_not]
  refine forall₂_congr fun i hi => ?_
  cases a.getLsbD i <;> simp [hi]

/-- Bits [95:32] above 32 zeros: the value without what stands above bit 95 and below bit 32. -/
theorem toNat_extractLsb'_append_zero_eq_sub (v : Word) :
    (v.extractLsb' 32 64 ++ 0#32).toNat = v.toNat % 2 ^ 96 - v.toNat % 2 ^ 32 := by
  rw [toNat_append_zero, BitVec.extractLsb'_toNat, Nat.shiftRight_eq_div_pow, Nat.shiftLeft_eq]
  omega

/-- An amount with its low 32 bits 0 is its bits [95:32] above 32 zeros. -/
theorem extractLsb'_append_zero_of_mod_eq_zero {a : Amount} (ha : a.toNat % 2 ^ 32 = 0) :
    a.extractLsb' 32 64 ++ 0#32 = a := by
  apply BitVec.eq_of_toNat_eq
  have hlt := a.isLt
  rw [toNat_append_zero, BitVec.extractLsb'_toNat, Nat.shiftRight_eq_div_pow, Nat.shiftLeft_eq]
  omega

theorem toNat_append_zero_mod {m : Nat} (v : BitVec m) (k : Nat) : (v ++ 0#k).toNat % 2 ^ k = 0 := by
  rw [toNat_append_zero, Nat.shiftLeft_eq, Nat.mul_mod_left]

/-! ## DECODE of ENCODE in range (R123, R126, R130) -/

/-- In range DECODE gives the low bits of each input, of the deposits only those it stores. -/
theorem decDatapath_encDatapath_of_inRange {t f d o : Word} (h : inRange t f d o = true) :
    decDatapath (encDatapath t f d o) =
      { timestamp := t.extractLsb' 0 32, flowRate := f.extractLsb' 0 96,
        deposit := d.extractLsb' 32 64 ++ 0#32, owedDeposit := o.extractLsb' 32 64 ++ 0#32 } := by
  rw [← encDatapath_timestamp_field_of_inRange h, ← encDatapath_flowRate_field_of_inRange (start := 0) h le_rfl,
    ← encDatapath_deposit_field_of_inRange h, ← encDatapath_owedDeposit_field t f d o]
  rfl

/-- Settles O19: each input fits its field, which for a deposit stands above 32 zeros. -/
theorem roundTripInRangeTruncates : Obligations.RoundTripInRangeTruncates := by
  intro t f d o h
  obtain ⟨ht, hf, hd, ho⟩ := (inRange_iff t f d o).1 h
  refine ⟨_, _, encodeGives_encDatapath t f d o, (decodeGives_iff ..).2 (decDatapath_encDatapath_of_inRange h),
    toNat_extractLsb'_zero_of_toNat_lt ht, toNat_extractLsb'_zero_of_toNat_lt hf, ?_, ?_⟩
  · rw [toNat_extractLsb'_append_zero_eq_sub, Nat.mod_eq_of_lt hd]
  · rw [toNat_extractLsb'_append_zero_eq_sub, Nat.mod_eq_of_lt ho]

/-- Settles O22: each output is made of its own input alone, and of nothing less than the bits it stores. -/
theorem fieldsIsolatedInRange : Obligations.FieldsIsolatedInRange := by
  intro t f d o t' f' d' o' h h'
  obtain ⟨ht, hf, -, -⟩ := (inRange_iff t f d o).1 h
  obtain ⟨ht', hf', -, -⟩ := (inRange_iff t' f' d' o').1 h'
  exact ⟨_, _, _, _, encodeGives_encDatapath t f d o,
    (decodeGives_iff ..).2 (decDatapath_encDatapath_of_inRange h), encodeGives_encDatapath t' f' d' o',
    (decodeGives_iff ..).2 (decDatapath_encDatapath_of_inRange h'), extractLsb'_zero_inj_of_toNat_lt ht ht',
    extractLsb'_zero_inj_of_toNat_lt hf hf', BitVec.append_left_inj _, BitVec.append_left_inj _⟩

/-- A canonical tuple is decoded from its own encoding. -/
theorem decDatapath_encDatapath_toPort {x : DecodeOutputs} (hd : x.deposit.toNat % 2 ^ 32 = 0)
    (ho : x.owedDeposit.toNat % 2 ^ 32 = 0) :
    decDatapath (encDatapath (toPort x.timestamp) (toPort x.flowRate) (toPort x.deposit) (toPort x.owedDeposit)) =
      x := by
  rw [decDatapath_encDatapath_of_inRange (inRange_toPort x), extractLsb'_toPort _ (by decide),
    extractLsb'_toPort _ (by decide), extractLsb'_toPort _ (by decide), extractLsb'_toPort _ (by decide),
    BitVec.extractLsb'_eq_self, BitVec.extractLsb'_eq_self, extractLsb'_append_zero_of_mod_eq_zero hd,
    extractLsb'_append_zero_of_mod_eq_zero ho]

/-- Settles O24: DECODE puts 32 zeros below its deposits, and a tuple with such deposits survives ENCODE. -/
theorem decodeOutputsAreCanonicalTuples : Obligations.DecodeOutputsAreCanonicalTuples := by
  intro x
  refine ⟨⟨?_, ?_⟩, fun hd ho => ?_⟩
  · rintro ⟨w, hw⟩
    obtain rfl := (decodeGives_iff w x).1 hw
    exact ⟨toNat_append_zero_mod _ 32, toNat_append_zero_mod _ 32⟩
  · rintro ⟨hd, ho⟩
    exact ⟨_, (decodeGives_iff ..).2 (decDatapath_encDatapath_toPort hd ho)⟩
  · exact ⟨_, encodeGives_encDatapath _ _ _ _, (decodeGives_iff ..).2 (decDatapath_encDatapath_toPort hd ho)⟩

/-! ## DECODE of ENCODE out of range (R124, R125) -/

section
variable (t f d o : Word)

theorem decDatapath_encDatapath_timestamp :
    (decDatapath (encDatapath t f d o)).timestamp =
      t.extractLsb' 0 32 ||| f.extractLsb' 96 32 ||| d.extractLsb' 192 32 :=
  encDatapath_timestamp_field t f d o

theorem decDatapath_encDatapath_flowRate :
    (decDatapath (encDatapath t f d o)).flowRate =
      f.extractLsb' 0 96 ||| d.extractLsb' 96 96 ||| o.extractLsb' 160 96 :=
  encDatapath_flowRate_field t f d o (start := 0) le_rfl

theorem decDatapath_encDatapath_deposit :
    (decDatapath (encDatapath t f d o)).deposit = (d.extractLsb' 32 64 ||| o.extractLsb' 96 64) ++ 0#32 := by
  rw [decDatapath_deposit, encDatapath_deposit_field]

theorem decDatapath_encDatapath_owedDeposit :
    (decDatapath (encDatapath t f d o)).owedDeposit = o.extractLsb' 32 64 ++ 0#32 := by
  rw [decDatapath_owedDeposit, encDatapath_owedDeposit_field]

end

/-- A stored field is a value without its low 32 bits exactly when it is all that stands above them. -/
theorem toNat_append_zero_eq_sub_mod_iff (v : BitVec 64) (a : Nat) :
    (v ++ 0#32).toNat = a - a % 2 ^ 32 ↔ v.toNat = a / 2 ^ 32 := by
  rw [toNat_append_zero, Nat.shiftLeft_eq]
  omega

/-- What stands above bit 32 fits 64 bits and takes nothing from `b` exactly in R124's domain. -/
theorem toNat_extractLsb'_or_eq_div_iff (d : Word) (b : BitVec 64) :
    (d.extractLsb' 32 64 ||| b).toNat = d.toNat / 2 ^ 32 ↔
      d.toNat < 2 ^ 96 ∧ b &&& ~~~(d.extractLsb' 32 64) = 0 := by
  have hslice (hd : d.toNat < 2 ^ 96) : (d.extractLsb' 32 64).toNat = d.toNat / 2 ^ 32 := by
    rw [toNat_extractLsb'_of_toNat_lt hd, Nat.shiftRight_eq_div_pow]
  rw [← or_eq_left_iff_and_not_eq_zero]
  constructor
  · intro h
    have hlt := (d.extractLsb' 32 64 ||| b).isLt
    have hd : d.toNat < 2 ^ 96 := by omega
    exact ⟨hd, BitVec.eq_of_toNat_eq (h.trans (hslice hd).symm)⟩
  · rintro ⟨hd, hor⟩
    rw [hor, hslice hd]

/-- Settles O20: the stored 64 bits are the deposit's own exactly when nothing of it stands above them and `o` adds
nothing to them; to the owed_deposit nothing can be added. -/
theorem truncatedRoundTripDomain : Obligations.TruncatedRoundTripDomain := by
  intro t f d o
  refine ⟨_, _, encodeGives_encDatapath t f d o, decodeGives_decDatapath _, ?_, ?_, ?_⟩
  · rw [decDatapath_encDatapath_deposit, toNat_append_zero_eq_sub_mod_iff, toNat_extractLsb'_or_eq_div_iff]
  · rw [decDatapath_encDatapath_owedDeposit, toNat_extractLsb'_append_zero_eq_sub]
    omega
  · rw [decDatapath_encDatapath_owedDeposit, toNat_extractLsb'_append_zero_eq_sub]

/-- Settles O21: `t` and `f` fit their fields, and what overflows into those is a slice of `d` or `o` that is 0 below
the stated bounds. -/
theorem exactRoundTripDomain : Obligations.ExactRoundTripDomain := by
  constructor
  · intro t f d o ht hf
    have htime : (decDatapath (encDatapath t f d o)).timestamp = t.extractLsb' 0 32 ||| d.extractLsb' 192 32 := by
      rw [decDatapath_encDatapath_timestamp, extractLsb'_eq_zero_of_toNat_lt hf le_rfl, BitVec.or_zero]
    have hflow := decDatapath_encDatapath_flowRate t f d o
    refine ⟨_, _, encodeGives_encDatapath t f d o, decodeGives_decDatapath _, ?_, ?_, fun hd => ?_, fun hd ho => ?_⟩
    · rw [htime, BitVec.setWidth_or, setWidth_extractLsb'_zero_of_toNat_lt ht]
    · rw [hflow, BitVec.setWidth_or, BitVec.setWidth_or, setWidth_extractLsb'_zero_of_toNat_lt hf]
    · rw [htime, extractLsb'_eq_zero_of_toNat_lt hd le_rfl, BitVec.or_zero, toNat_extractLsb'_zero_of_toNat_lt ht]
    · rw [hflow, extractLsb'_eq_zero_of_toNat_lt hd le_rfl, extractLsb'_eq_zero_of_toNat_lt ho le_rfl,
        BitVec.or_zero, BitVec.or_zero, toNat_extractLsb'_zero_of_toNat_lt hf]
  · exact ⟨_, _, encodeGives_encDatapath 0 0 (BitVec.ofNat 256 (2 ^ 96)) 0, decodeGives_decDatapath _, by decide⟩

/-! ## The document's unbounded source (R90) -/

/-- A union that fits the word is the word. -/
theorem toNat_encDatapath_of_lt {t f d o : Word}
    (h : encUnbounded t.toNat f.toNat d.toNat o.toNat < 2 ^ 256) :
    (encDatapath t f d o).toNat = encUnbounded t.toNat f.toNat d.toNat o.toNat := by
  rw [encDatapath, BitVec.toNat_ofNat, Nat.mod_eq_of_lt h]

/-- Settles O25: below `2^256` the word is the unbounded union, and DECODE shifts and masks it as the document does
(R65). -/
theorem agreesWithUnboundedSource : Obligations.AgreesWithUnboundedSource := by
  intro t f d o h
  obtain ⟨x, hexec, htime, hflow, hdep, howed, -⟩ :=
    decodeSamplesFourFields (encDatapath t f d o) State.reset rfl
  have hx : decDatapath (encDatapath t f d o) = x := by
    have hnext := Host.Outcome.next.inj ((execDecode_value rfl _).symm.trans hexec)
    exact Option.some.inj (congrArg State.sampledDec hnext)
  rw [toNat_encDatapath_of_lt h] at htime hflow hdep howed
  exact ⟨_, x, encodeGives_encDatapath t f d o, (decodeGives_iff ..).2 hx, toNat_encDatapath_of_lt h,
    htime, hflow, hdep, howed⟩

end Sys2Proof.Machine
end

section
/-! PROOFS. The values the spec computes for listed operands (40_encode.md R88 and R89, 41_decode.md R107 and R108,
42_roundtrip.md R127), each the datapath's, and the samples at reset (70_reset_and_hazards.md section 1). -/

namespace Sys2Proof.Machine

/-- Settles O44: each listed word is the ENCODE datapath's value. -/
theorem encodeCornerCases : Obligations.EncodeCornerCases := by
  simp only [Obligations.EncodeCornerCases, encodeGives_iff]
  decide

/-- Settles O45: each listed tuple is the DECODE datapath's value. -/
theorem decodeCornerCases : Obligations.DecodeCornerCases := by
  simp only [Obligations.DecodeCornerCases, decodeGives_iff]
  decide

/-- Settles O23: the word and the tuple are the datapaths' values. -/
theorem documentScenario : Obligations.DocumentScenario := by
  simp only [Obligations.DocumentScenario, encodeGives_iff, decodeGives_iff]
  decide

/-- Settles O40: at reset no input carries a constant and there is no sample (log entries 2 and 3). -/
theorem resetSamplesConsistent : Obligations.ResetSamplesConsistent := ⟨⟨nofun, nofun⟩, nofun⟩

end Sys2Proof.Machine
end
